-- ==== Sys2Proof/Word.lean ====
section
/-! DEFINITION. The words of the block: an 8-bit datum, the 10-bit control word, and the form of a byte memory. -/

namespace Sys2Proof

/-- An 8-bit unsigned datum: a sample, a duty value, a preset index (00_scope.md R10: "Every register and every port is unsigned"). -/
abbrev Byte := BitVec 8

/-- The 10-bit control word `CW = {preset_sel[7:0], rst, tick}` sampled at one edge (30_encoding.md R70, R71). -/
abbrev ControlWord := BitVec 10

/-- A read-only byte space as a list of (address, byte) cells.  Its canonical form is `Memory.wf`
(Machine/Rom.lean); what an unlisted address reads as is `unlistedByte` there. -/
abbrev Memory := List Host.Cell

end Sys2Proof
end

