-- ==== Sys2Proof/Syntax.lean ====
section
/-! DEFINITION. The block's operations (one constructor per row of spec/opcode_table.json) and the statements of the
assembler notation that stands for sequences of them (30_encoding.md R77, R78). -/

namespace Sys2Proof

/-- The operation one control word selects (30_encoding.md R73).  A constructor carries what the operation reads of the
word and nothing else: IDLE and TICK ignore `psel`, RESET ignores `tick` (R72, R75). -/
inductive Instr where
  /-- A clock edge without a tick (40_operations.md R102). -/
  | idle
  /-- One iteration of the engine loop (40_operations.md R103). -/
  | tick
  /-- Initialise every register and latch the preset index `psel = CW[9:2]` (40_operations.md R101). -/
  | reset (psel : Byte)
deriving DecidableEq, Repr

/-- A statement of the assembler notation, its numbers as written (30_encoding.md R77, R78); which numbers are
accepted is `Stmt.wellFormed`. -/
inductive Stmt where
  | idle
  | tick
  | reset (p : Nat)
  | ticks (n : Nat)
  | idles (n : Nat)
  /-- One TICK, then n − 1 IDLEs. -/
  | tickwait (n : Nat)
  /-- k·B TICKs. -/
  | recomputes (k : Nat)
  /-- The power-on handoff: an alias of `reset`. -/
  | poweron (p : Nat)
deriving DecidableEq, Repr

end Sys2Proof
end

