-- ==== Sys2Proof/Decode.lean ====
section
/-! DEFINITION. From control words to operations and back (30_encoding.md R70 to R76): the word's fields, the opcode
map, a total decoder on 10-bit words, the refusal of wider words, and the encoder. -/

namespace Sys2Proof

/-- `CW[0]`, the `tick` pin (30_encoding.md R71). -/
def tickField (cw : ControlWord) : Bool := cw.getLsbD 0

/-- `CW[1]`, the `rst` pin (30_encoding.md R71). -/
def rstField (cw : ControlWord) : Bool := cw.getLsbD 1

/-- `CW[9:2]`, the `preset_sel` pins (30_encoding.md R71, R72). -/
def pselField (cw : ControlWord) : Byte := cw.extractLsb' 2 8

/-- `CW = {preset_sel[7:0], rst, tick}` (30_encoding.md R71). -/
def controlWord (psel : Byte) (rst tick : Bool) : ControlWord :=
  psel ++ (BitVec.ofBool rst ++ BitVec.ofBool tick)

/-- One row of the opcode map. -/
structure OpcodeRow where
  mnemonic : String
  mask : ControlWord
  matchValue : ControlWord
deriving DecidableEq, Repr

/-- The opcode map (30_encoding.md R73). -/
def opcodeTable : List OpcodeRow :=
  [⟨"IDLE", 0x003, 0x000⟩, ⟨"TICK", 0x003, 0x001⟩, ⟨"RESET", 0x002, 0x002⟩]

/-- "A word w selects a row when `(w & mask) == match`" (30_encoding.md R73). -/
def OpcodeRow.selects (r : OpcodeRow) (cw : ControlWord) : Bool := cw &&& r.mask == r.matchValue

/-- The operation a control word selects: RESET when `rst` is 1, whatever `tick` is, else TICK when `tick` is 1, else
IDLE (30_encoding.md R73, R75).  Total: "All 1024 words decode". -/
def decodeControl (cw : ControlWord) : Instr :=
  if rstField cw then .reset (pselField cw)
  else if tickField cw then .tick
  else .idle

/-- Why a number is no control word. -/
inductive DecodeError where
  /-- The number needs more than 10 bits; "Every word is 10 bits, and its length is fixed" (30_encoding.md R76).  Raised
  by `decodeWord`.  Safe: no pin carries the bit. -/
  | widerThanTenBits
deriving DecidableEq, Repr

/-- The decoder on any number: a 10-bit word decodes, a wider one is refused by name (log 7). -/
def decodeWord (w : Nat) : Except DecodeError Instr :=
  if w < 1024 then .ok (decodeControl (BitVec.ofNat 10 w)) else .error .widerThanTenBits

/-- The decoder's reading of an instruction whose low `nbits` bits are those of `w` and whose other bits are 0, numbered
as spec/opcode_table.json numbers them, which is the control word's own numbering (30_encoding.md R71). -/
def decodeTableWord (nbits w : Nat) : Option Instr := (decodeWord (w % 2 ^ nbits)).toOption

/-- The assembler's word for an operation: the ignored fields are 0 (30_encoding.md R77). -/
def encode : Instr → ControlWord
  | .idle => controlWord 0 false false
  | .tick => controlWord 0 false true
  | .reset p => controlWord p true false

/-- The bits of a word that select the operation or are read by it; the others are ignored (30_encoding.md R72, R73,
R75). -/
def readMask : Instr → ControlWord
  | .idle => 0x003
  | .tick => 0x003
  | .reset _ => 0x3FE

/-- The row of the opcode map an operation belongs to. -/
def opcodeRow : Instr → OpcodeRow
  | .idle => ⟨"IDLE", 0x003, 0x000⟩
  | .tick => ⟨"TICK", 0x003, 0x001⟩
  | .reset _ => ⟨"RESET", 0x002, 0x002⟩

end Sys2Proof
end

