-- ==== Sys2Proof/Config.lean ====
section
/-! DEFINITION. The implementation parameters of 00_scope.md R7, as plain data.  An instance's configuration is fixed
for its life; State carries it in one field that no operation writes (log 1).  Which values are legal is
`Config.legal` / `Config.admitted` in Machine/Configuration.lean. -/

namespace Sys2Proof

/-- Which phase step and phase flag a recomputation reads (00_scope.md R7 `ORDER`; 41_phase_counter.md R126). -/
inductive Order where
  /-- The values held before this recomputation's advance and toggle. -/
  | lookupFirst
  /-- The values after this recomputation's advance and toggle. -/
  | advanceFirst
deriving DecidableEq, Repr

/-- What a duty value above 255 becomes (00_scope.md R7 `OVF_MODE`; 43_brightness_scaler.md R155). -/
inductive OvfMode where
  /-- Keep the 8 low bits. -/
  | wrap
  /-- Saturate at 255. -/
  | clamp
deriving DecidableEq, Repr

/-- The parameters of 00_scope.md R7.  `PRESET_COUNT` is the length of `presetNum` (log 10). -/
structure Config where
  /-- `WAVE[0..255]`, the waveform table, as a read-only memory. -/
  wave : Memory
  /-- `PRESET_NUM[0..P-1]`, the preset multipliers' numerators over `fracDen`. -/
  presetNum : List Nat
  /-- `FRAC_DEN` (D), the common denominator of every fractional constant. -/
  fracDen : Nat
  /-- `BASE_NUM`, the numerator of the baseline fraction f = BASE_NUM / D. -/
  baseNum : Nat
  /-- `MOD_BASE` (B), the Diastole interval in ticks. -/
  modBase : Nat
  /-- `TCNT_W`, the width in bits of TCNT and IVAL. -/
  tcntW : Nat
  /-- `ORDER`. -/
  order : Order
  /-- `DAMP_TRUNC`. -/
  dampTrunc : Bool
  /-- `BLEND_TRUNC`. -/
  blendTrunc : Bool
  /-- `OVF_MODE`. -/
  ovfMode : OvfMode
deriving DecidableEq, Repr

end Sys2Proof
end

