-- ==== Sys2Proof/Machine/Rom.lean ====
section
/-! DEFINITION. The waveform LUT ROM as a read-only memory: the canonical form, the one read, and the way a table of
samples becomes a memory (20_memory.md R50, R51).  The block has no memory write (00_scope.md R13). -/

namespace Sys2Proof

/-- What an address with no cell reads as.  Every 256-byte table has exactly one canonical memory, so the value chosen
here restricts nothing (log 8). -/
def unlistedByte : Byte := 0

/-- The cell at address `a`, if one is listed. -/
def romFind (a : Nat) : Memory → Option Byte
  | [] => none
  | (b, v) :: rest => if b = a then some v else romFind a rest

/-- `MemRead(addr, 1)`: total, "Every 8-bit address is mapped" (20_memory.md R51). -/
def memRead (m : Memory) (a : Byte) : Byte := (romFind a.toNat m).getD unlistedByte

/-- The cells' addresses rise strictly from `lo`, lie below 256, and no cell holds the unlisted byte. -/
def Memory.wfFrom (lo : Nat) : Memory → Bool
  | [] => true
  | (a, v) :: rest => decide (lo ≤ a) && decide (a < 256) && (v != unlistedByte) && Memory.wfFrom (a + 1) rest

/-- The canonical form of a memory over the ROM's address space 0x00 to 0xFF (20_memory.md R50, R55). -/
def Memory.wf (m : Memory) : Bool := Memory.wfFrom 0 m

/-- The memory that holds the bytes of a table from address `a` on, in canonical form. -/
def Memory.ofBytesAt (a : Nat) : List Byte → Memory
  | [] => []
  | v :: rest => if v = unlistedByte then Memory.ofBytesAt (a + 1) rest else (a, v) :: Memory.ofBytesAt (a + 1) rest

/-- The memory that holds a waveform table, entry 0 at address 0 (20_memory.md R50: "The byte at address a is the
configuration value `WAVE[a]`"). -/
def Memory.ofBytes (table : List Byte) : Memory := Memory.ofBytesAt 0 table

end Sys2Proof
end

