-- ==== Sys2Proof/Machine/Configuration.lean ====
section
/-! DEFINITION. Which configurations are legal (00_scope.md R8), the reference table and the reference configuration
(42_waveform_lut.md R143; 00_scope.md R9), and the reads of the preset table (20_memory.md R52, R53). -/

namespace Sys2Proof

/-- `PRESET_COUNT` (P), the number of brightness presets. -/
def Config.presetCount (c : Config) : Nat := c.presetNum.length

/-- The ranges of 00_scope.md R7, but for the upper bound of the multipliers: R8 lets a model admit
`PRESET_NUM[i] > D`, and this model does (log 10). -/
def Config.admitted (c : Config) : Bool :=
  decide (1 ≤ c.presetCount) && decide (c.presetCount ≤ 256) && decide (1 ≤ c.fracDen) &&
  decide (c.baseNum < c.fracDen) && c.presetNum.all (fun m => decide (1 ≤ m)) && decide (1 ≤ c.modBase) &&
  decide (2 ≤ c.tcntW) && decide (2 * c.modBase ≤ 2 ^ c.tcntW - 1)

/-- A legal configuration: every range of 00_scope.md R7 holds (R8). -/
def Config.legal (c : Config) : Bool := c.admitted && c.presetNum.all (fun m => decide (m ≤ c.fracDen))

/-- `PresetRead(i)`: entry i of the preset table, none when i ≥ P (20_memory.md R52, R53). -/
def presetRead (c : Config) (i : Byte) : Option Nat := c.presetNum[i.toNat]?

/-- Rows 0x00 to 0x30 of the listing of `WAVE_REF` (42_waveform_lut.md R143). -/
def waveRefQuarter0 : List Byte :=
  [0, 0, 0, 0, 0, 0, 1, 1, 2, 3, 3, 4, 5, 6, 7, 8] ++
  [9, 10, 12, 13, 15, 16, 18, 19, 21, 23, 25, 26, 28, 30, 33, 35] ++
  [37, 39, 41, 44, 46, 49, 51, 54, 56, 59, 61, 64, 67, 70, 72, 75] ++
  [78, 81, 84, 87, 90, 93, 96, 99, 102, 105, 108, 111, 115, 118, 121, 124]

/-- Rows 0x40 to 0x70 of the listing of `WAVE_REF` (42_waveform_lut.md R143). -/
def waveRefQuarter1 : List Byte :=
  [127, 130, 133, 136, 139, 143, 146, 149, 152, 155, 158, 161, 164, 167, 170, 173] ++
  [176, 179, 182, 184, 187, 190, 193, 195, 198, 200, 203, 205, 208, 210, 213, 215] ++
  [217, 219, 221, 224, 226, 228, 229, 231, 233, 235, 236, 238, 239, 241, 242, 244] ++
  [245, 246, 247, 248, 249, 250, 251, 251, 252, 253, 253, 254, 254, 254, 254, 254]

/-- Rows 0x80 to 0xB0 of the listing of `WAVE_REF` (42_waveform_lut.md R143). -/
def waveRefQuarter2 : List Byte :=
  [255, 254, 254, 254, 254, 254, 253, 253, 252, 251, 251, 250, 249, 248, 247, 246] ++
  [245, 244, 242, 241, 239, 238, 236, 235, 233, 231, 229, 228, 226, 224, 221, 219] ++
  [217, 215, 213, 210, 208, 205, 203, 200, 198, 195, 193, 190, 187, 184, 182, 179] ++
  [176, 173, 170, 167, 164, 161, 158, 155, 152, 149, 146, 143, 139, 136, 133, 130]

/-- Rows 0xC0 to 0xF0 of the listing of `WAVE_REF` (42_waveform_lut.md R143). -/
def waveRefQuarter3 : List Byte :=
  [127, 124, 121, 118, 115, 111, 108, 105, 102, 99, 96, 93, 90, 87, 84, 81] ++
  [78, 75, 72, 70, 67, 64, 61, 59, 56, 54, 51, 49, 46, 44, 41, 39] ++
  [37, 35, 33, 30, 28, 26, 25, 23, 21, 19, 18, 16, 15, 13, 12, 10] ++
  [9, 8, 7, 6, 5, 4, 3, 3, 2, 1, 1, 0, 0, 0, 0, 0]

/-- `WAVE_REF`, the spec's reference table (42_waveform_lut.md R143). -/
def waveRefBytes : List Byte := waveRefQuarter0 ++ waveRefQuarter1 ++ waveRefQuarter2 ++ waveRefQuarter3

/-- `WAVE_REF` as the ROM's contents. -/
def waveRef : Memory := Memory.ofBytes waveRefBytes

/-- The reference configuration (00_scope.md R9): the spec's own choice, made for test vectors (log 2). -/
def Config.reference : Config where
  wave := waveRef
  presetNum := [25, 50, 75, 100]
  fracDen := 100
  baseNum := 40
  modBase := 2
  tcntW := 16
  order := .lookupFirst
  dampTrunc := true
  blendTrunc := false
  ovfMode := .wrap

end Sys2Proof
end

