-- ==== Sys2Proof/Machine/State.lean ====
section
/-! DEFINITION. The block's state as plain data, the reasons a step can stop, and the state right after reset
(10_state.md R22, R39; 00_scope.md R14). -/

namespace Sys2Proof.Machine

/-- The values of `SYS`, the is-systole flag (10_state.md R22, R23): Diastole is 0, Systole is 1. -/
inductive Phase where
  | diastole
  | systole
deriving DecidableEq, Repr

/-- Whether a RESET edge has happened since power-on (70_reset_and_hazards.md R230: "a distinguished *unreset* state").
In `unreset` the register fields stand for the unspecified power-on values, which no operation reads (log 4). -/
inductive Life where
  | unreset
  | running
deriving DecidableEq, Repr

/-- The block has no fault: "It has no fault, no stuck state and no hold" (60_exceptions.md R212).  A closed inductive
without constructors: nothing can raise one. -/
inductive Fault where
deriving DecidableEq, Repr

/-- The two refusals of 00_scope.md R14, and the host's name for an instruction without a meaning. -/
inductive Refusal where
  /-- An instruction that has no meaning yet, by its mnemonic.  Raised by no arm of `exec`: every instruction has its
  meaning.  Safe: nothing is claimed of a refused step. -/
  | notModelled (mnemonic : String)
  /-- `refuse IllegalConfig`: the configuration is outside 00_scope.md R8.  Raised by `buildInstance`, and by every
  operation of a state that carries such a configuration (log 11).  Safe: R8 defines no behaviour there. -/
  | illegalConfig
  /-- `refuse IllegalState`: an IDLE or TICK before the first RESET or from a state that breaks an invariant of
  10_state.md R33 (40_operations.md R100).  Raised by IDLE and TICK.  Safe: the spec gives no next state there. -/
  | illegalState
deriving DecidableEq, Repr

/-- The machine's state: the nine registers of 10_state.md R22, the unreset condition (R39), the instance's
configuration (00_scope.md R7), and what the host drives on the input pins (30_encoding.md R70). -/
structure State where
  /-- The instance's configuration: a parameter of every operation, written by none (log 1). -/
  cfg : Config
  /-- Whether a RESET has happened since power-on (70_reset_and_hazards.md R230). -/
  life : Life
  /-- The levels on the ten input pins, which the next edge samples (10_state.md R38; 30_encoding.md R70). -/
  pins : ControlWord
  /-- The model's own: the levels the host will drive after the coming edges, the next one first (log 5). -/
  stimulus : List ControlWord
  /-- `SYS`, 1 bit (10_state.md R23). -/
  sys : Phase
  /-- `PSTEP`, 8 bits: the phase step (10_state.md R24). -/
  pstep : Byte
  /-- `IVAL`, TCNT_W bits: the modulation interval in ticks (10_state.md R25; log 9). -/
  ival : Nat
  /-- `TCNT`, TCNT_W bits: the modulation-tick counter (10_state.md R26; log 9). -/
  tcnt : Nat
  /-- `OUT`, 8 bits: the duty value (10_state.md R27). -/
  out : Byte
  /-- `PSEL`, 8 bits: the preset index of the session (10_state.md R28). -/
  psel : Byte
  /-- `WSTB`, 1 bit: the write strobe (10_state.md R29). -/
  wstb : Bool
  /-- `PCNT`, 8 bits: the position in the PWM period (10_state.md R30). -/
  pcnt : Byte
  /-- `DACT`, 8 bits: the duty value in force (10_state.md R31). -/
  dact : Byte
deriving DecidableEq, Repr

/-- The engine registers, as 40_operations.md R106 and 41_phase_counter.md R130 list them. -/
structure Engine where
  sys : Phase
  pstep : Byte
  ival : Nat
  tcnt : Nat
  out : Byte
  psel : Byte
deriving DecidableEq, Repr

/-- The engine registers of a state. -/
def State.engine (s : State) : Engine := ⟨s.sys, s.pstep, s.ival, s.tcnt, s.out, s.psel⟩

/-- The machine right after a RESET edge (10_state.md R39), in the reference configuration (log 2), with `preset_sel` 0
at that edge (log 3), the pins at 0 and no further stimulus (log 5). -/
def State.reset : State where
  cfg := Config.reference
  life := .running
  pins := 0
  stimulus := []
  sys := .diastole
  pstep := 0
  ival := Config.reference.modBase
  tcnt := 0
  out := 0
  psel := 0
  wstb := false
  pcnt := 0
  dact := 0

end Sys2Proof.Machine
end

