-- ==== Sys2Proof/Machine/Pwm.lean ====
section
/-! DEFINITION. The PWM duty-cycle generator: the period counter and shadow register, and the three output ports
(44_pwm_output.md R170, R171, R173 to R175; 10_state.md R38). -/

namespace Sys2Proof.Machine

/-- PCNT after `PwmStep()` (44_pwm_output.md R173). -/
def pwmCount (s : State) : Byte := if s.pcnt = 254 then 0 else s.pcnt + 1

/-- DACT after `PwmStep()`: OUT as held before the edge, at a period's end (44_pwm_output.md R173, R174). -/
def pwmShadow (s : State) : Byte := if s.pcnt = 254 then s.out else s.dact

/-- The port `duty = OUT` (44_pwm_output.md R170). -/
def State.duty (s : State) : Byte := s.out

/-- The port `duty_wr = WSTB` (44_pwm_output.md R171). -/
def State.dutyWr (s : State) : Bool := s.wstb

/-- The port `pwm_out = (PCNT < DACT) ? 1 : 0`, active high (44_pwm_output.md R175). -/
def State.pwmOut (s : State) : Bool := s.pcnt < s.dact

/-- The values on the three output ports. -/
structure PortValues where
  duty : Byte
  dutyWr : Bool
  pwmOut : Bool
deriving DecidableEq, Repr

/-- What is observed after an edge (10_state.md R41); before the first RESET no register has a value, so nothing is
(10_state.md R39; log 12). -/
def State.observe (s : State) : Option PortValues :=
  match s.life with
  | .unreset => none
  | .running => some ⟨s.duty, s.dutyWr, s.pwmOut⟩

end Sys2Proof.Machine
end

