-- ==== Sys2Proof/Machine/Operands.lean ====
section
/-! DEFINITION. The one operand of the format, `psel`, as RESET resolves it, and the operands a recomputation reads from
the two read-only tables (30_encoding.md R72; 40_operations.md R101; 41_phase_counter.md R126; 42_waveform_lut.md
R140). -/

namespace Sys2Proof.Machine

/-- The value RESET latches into PSEL: "(zext(p) < P) ? p : 0" (40_operations.md R101; 90_conflicts.md C2). -/
def resolvePreset (c : Config) (p : Byte) : Byte := if p.toNat < c.presetCount then p else 0

/-- `p1 = (PSTEP + 1) mod 256` (41_phase_counter.md R122). -/
def nextPhaseStep (s : State) : Byte := s.pstep + 1

/-- The LUT address `a` of a recomputation: PSTEP, or p1 with ADVANCE_FIRST (41_phase_counter.md R126). -/
def lutAddress (s : State) : Byte :=
  match s.cfg.order with
  | .lookupFirst => s.pstep
  | .advanceFirst => nextPhaseStep s

/-- The sample `s = MemRead(a, 1)` of a recomputation (42_waveform_lut.md R140). -/
def lutSample (s : State) : Byte := memRead s.cfg.wave (lutAddress s)

/-- The preset numerator `M = PresetRead(PSEL)`; none only when INV3 is broken (20_memory.md R53). -/
def presetNumerator (s : State) : Option Nat := presetRead s.cfg s.psel

end Sys2Proof.Machine
end

