-- ==== Sys2Proof/Machine/Flags.lean ====
section
/-! DEFINITION. The block's one flag, SYS, and the Boolean conditions a TICK computes (10_state.md R34;
41_phase_counter.md R120, R121, R123 to R126). -/

namespace Sys2Proof.Machine

/-- `1 - SYS`: the two-state machine Diastole ⇄ Systole (41_phase_counter.md R124). -/
def Phase.toggle : Phase → Phase
  | .diastole => .systole
  | .systole => .diastole

/-- `Interval(x) = (x == 1) ? 2·B : B` (41_phase_counter.md R125). -/
def interval (c : Config) : Phase → Nat
  | .diastole => c.modBase
  | .systole => 2 * c.modBase

/-- `t1 = (TCNT + 1) mod 2^TCNT_W` (41_phase_counter.md R120). -/
def nextTick (s : State) : Nat := (s.tcnt + 1) % 2 ^ s.cfg.tcntW

/-- `recompute = (t1 == IVAL)` (41_phase_counter.md R121). -/
def recompute (s : State) : Bool := nextTick s == s.ival

/-- `wrap = (p1 == 0)` (41_phase_counter.md R123). -/
def wrap (s : State) : Bool := nextPhaseStep s == 0

/-- `sys1 = wrap ? (1 - SYS) : SYS` (41_phase_counter.md R124). -/
def nextPhase (s : State) : Phase := if wrap s then s.sys.toggle else s.sys

/-- IVAL after a recomputation: `Interval(sys1)` at a wrap, else unchanged (41_phase_counter.md R125). -/
def nextInterval (s : State) : Nat := if wrap s then interval s.cfg (nextPhase s) else s.ival

/-- The phase `ph` the scaler sees at a recomputation: SYS, or sys1 with ADVANCE_FIRST (41_phase_counter.md R126). -/
def lookupPhase (s : State) : Phase :=
  match s.cfg.order with
  | .lookupFirst => s.sys
  | .advanceFirst => nextPhase s

end Sys2Proof.Machine
end

