-- ==== Sys2Proof/Machine/Scaler.lean ====
section
/-! DEFINITION. The fixed-point brightness scaler: the integer datapath of 43_brightness_scaler.md R156, which the step
uses, and the conversion to 8 bits of R155.  The exact rational function of R150 to R154 is in Machine/ScalerExact.lean;
that the two agree is an obligation (log 13). -/

namespace Sys2Proof.Machine

/-- `K = D − BASE_NUM` (43_brightness_scaler.md R156). -/
def blendGain (c : Config) : Nat := c.fracDen - c.baseNum

/-- `A = 255 · BASE_NUM` (43_brightness_scaler.md R156). -/
def blendFloor (c : Config) : Nat := 255 * c.baseNum

/-- The damped sample, truncated: `(ph == 1) ? (3 * s) div 5 : s` (43_brightness_scaler.md R151, R156). -/
def dampedSample (sample : Byte) : Phase → Nat
  | .diastole => sample.toNat
  | .systole => 3 * sample.toNat / 5

/-- The damped sample in fifths, exact: `(ph == 1) ? 3 * s : 5 * s` (43_brightness_scaler.md R156). -/
def dampedFifths (sample : Byte) : Phase → Nat
  | .diastole => 5 * sample.toNat
  | .systole => 3 * sample.toNat

/-- `d`, the duty value before the conversion to 8 bits, by the integer datapath (43_brightness_scaler.md R156). -/
def dutyDatapath (c : Config) (sample : Byte) (ph : Phase) (m : Nat) : Nat :=
  match c.dampTrunc, c.blendTrunc with
  | true, false =>
    (blendFloor c + dampedSample sample ph * blendGain c) * m / (c.fracDen * c.fracDen)
  | true, true =>
    (blendFloor c + dampedSample sample ph * blendGain c) / c.fracDen * m / c.fracDen
  | false, false =>
    (5 * blendFloor c + dampedFifths sample ph * blendGain c) * m / (5 * c.fracDen * c.fracDen)
  | false, true =>
    (5 * blendFloor c + dampedFifths sample ph * blendGain c) / (5 * c.fracDen) * m / c.fracDen

/-- `Conv8(d)` (43_brightness_scaler.md R155). -/
def conv8 (mode : OvfMode) (d : Nat) : Byte :=
  if d ≤ 255 then BitVec.ofNat 8 d
  else match mode with
    | .wrap => BitVec.ofNat 8 (d % 256)
    | .clamp => 255

/-- `Scale(s, ph, M)` (43_brightness_scaler.md R150). -/
def scale (c : Config) (sample : Byte) (ph : Phase) (m : Nat) : Byte :=
  conv8 c.ovfMode (dutyDatapath c sample ph m)

end Sys2Proof.Machine
end

