-- ==== Sys2Proof/Machine/Ops.lean ====
section
/-! DEFINITION. The operations every meaning shares: the invariants a step checks (10_state.md R33), the operation frame
(40_operations.md R100), the power-on state (70_reset_and_hazards.md R230), and the input pins (30_encoding.md R70).
There is no exception to take and none to return from (60_exceptions.md R200, R203, R204), so no operation for either. -/

namespace Sys2Proof.Machine

/-- INV1: `IVAL == (SYS == 1 ? 2·B : B)` (10_state.md R33). -/
def State.inv1 (s : State) : Bool := s.ival == interval s.cfg s.sys

/-- INV2: `TCNT < IVAL` (10_state.md R33). -/
def State.inv2 (s : State) : Bool := decide (s.tcnt < s.ival)

/-- INV3: `PSEL < P` (10_state.md R33). -/
def State.inv3 (s : State) : Bool := decide (s.psel.toNat < s.cfg.presetCount)

/-- INV4: `PCNT <= 254` (10_state.md R33). -/
def State.inv4 (s : State) : Bool := decide (s.pcnt.toNat ≤ 254)

/-- The four invariants of 10_state.md R33. -/
def State.inv (s : State) : Bool := s.inv1 && s.inv2 && s.inv3 && s.inv4

/-- The state admits IDLE and TICK: a RESET has happened and no invariant is broken (40_operations.md R100). -/
def State.admitsAll (s : State) : Bool := (s.life == .running) && s.inv

/-- The operation frame for IDLE and TICK (40_operations.md R100): an illegal configuration and a state that does not
admit the operation are refused; otherwise the effect gives the next state.  The effect answers none only when it reads
outside the preset table, whose outcome is `refuse IllegalState` too (20_memory.md R53). -/
def operate (effect : State → Option State) (s : State) : Host.Outcome State Fault Refusal :=
  if s.cfg.admitted then
    if s.admitsAll then
      match effect s with
      | some t => .next t
      | none => .refused .illegalState
    else .refused .illegalState
  else .refused .illegalConfig

/-- The operation frame for RESET, which is admitted from any state, "reachable or not, and from the power-on state"
(40_operations.md R101 corner case e; log 15). -/
def operateAnyState (effect : State → State) (s : State) : Host.Outcome State Fault Refusal :=
  if s.cfg.admitted then .next (effect s) else .refused .illegalConfig

/-- The power-on state of an instance: no RESET has happened, and the registers hold whatever `contents` holds
(70_reset_and_hazards.md R230; log 4). -/
def State.powerOn (c : Config) (contents : State) : State := { contents with cfg := c, life := .unreset }

/-- Building an instance: a configuration outside 00_scope.md R8 is refused, any other starts unreset (R14; log 11). -/
def buildInstance (c : Config) (contents : State) : Host.Outcome State Fault Refusal :=
  if c.admitted then .next (State.powerOn c contents) else .refused .illegalConfig

/-- The host drives the ten pins. -/
def State.drive (s : State) (cw : ControlWord) : State := { s with pins := cw }

/-- After an edge the host drives the next word of its stimulus; with none left the pins hold their levels (log 5). -/
def State.advancePins (s : State) : State :=
  match s.stimulus with
  | [] => s
  | cw :: rest => { s with pins := cw, stimulus := rest }

/-- A program, as the control words the host presents one per edge (30_encoding.md R79), loaded from outside: its first
word is on the pins, the others follow (log 6). -/
def State.loadProgram (s : State) : List ControlWord → State
  | [] => { s with stimulus := [] }
  | cw :: rest => { s with pins := cw, stimulus := rest }

end Sys2Proof.Machine
end

