-- ==== Sys2Proof/Machine/Control.lean ====
section
/-! DEFINITION. The meanings of IDLE, TICK and RESET (40_operations.md R101 to R103).  Every right-hand side reads the
registers as they were before the edge (00_scope.md R12). -/

namespace Sys2Proof.Machine

/-- IDLE's register transfers: WSTB <- 0, PwmStep (40_operations.md R102). -/
def idleEffect (s : State) : State :=
  { s with wstb := false, pcnt := pwmCount s, dact := pwmShadow s }

/-- A TICK that does not recompute: TCNT <- t1, WSTB <- 1, PwmStep (40_operations.md R103). -/
def countEffect (s : State) : State :=
  { s with tcnt := nextTick s, wstb := true, pcnt := pwmCount s, dact := pwmShadow s }

/-- A recomputation TICK with the preset numerator m (40_operations.md R103). -/
def recomputeEffect (m : Nat) (s : State) : State :=
  { s with
    tcnt := 0
    out := scale s.cfg (lutSample s) (lookupPhase s) m
    pstep := nextPhaseStep s
    sys := nextPhase s
    ival := nextInterval s
    wstb := true
    pcnt := pwmCount s
    dact := pwmShadow s }

/-- TICK's register transfers; none when the preset read is out of range (40_operations.md R103; 20_memory.md R53). -/
def tickEffect (s : State) : Option State :=
  if recompute s then (presetNumerator s).map fun m => recomputeEffect m s
  else some (countEffect s)

/-- RESET's register transfers (40_operations.md R101). -/
def resetEffect (p : Byte) (s : State) : State :=
  { s with
    life := .running
    sys := .diastole
    pstep := 0
    ival := s.cfg.modBase
    tcnt := 0
    out := 0
    psel := resolvePreset s.cfg p
    wstb := false
    pcnt := 0
    dact := 0 }

/-- IDLE (40_operations.md R102). -/
def execIdle (s : State) : Host.Outcome State Fault Refusal := operate (fun u => some (idleEffect u)) s

/-- TICK (40_operations.md R103). -/
def execTick (s : State) : Host.Outcome State Fault Refusal := operate tickEffect s

/-- RESET p (40_operations.md R101). -/
def execReset (p : Byte) (s : State) : Host.Outcome State Fault Refusal := operateAnyState (resetEffect p) s

end Sys2Proof.Machine
end

