-- ==== Sys2Proof/Machine/Step.lean ====
section
/-! DEFINITION. One rising clock edge: the control word on the pins is sampled and its operation performed, while the
host moves on to its next word (30_encoding.md R70). -/

namespace Sys2Proof.Machine

/-- One rising edge of `clk` (00_scope.md R3; 30_encoding.md R70). -/
def step (s : State) : Host.Outcome State Fault Refusal := exec (decodeControl s.pins) s.advancePins

/-- The state whose next edge samples the word w, numbered as the control word is (30_encoding.md R71); bits above
`nbits` are 0, and there is no pin for a bit above 9 (log 7). -/
def State.withFetchWord (s : State) (nbits w : Nat) : State := s.drive (BitVec.ofNat 10 (w % 2 ^ nbits))

end Sys2Proof.Machine
end

