-- ==== Sys2Proof/WellFormed.lean ====
section
/-! DEFINITION. Which terms of the notation are accepted.  An `Instr` needs no check: its one operand is an 8-bit field,
and every value of the field is an operand (30_encoding.md R72, R75).  A `Stmt` holds numbers as written and is checked
here (30_encoding.md R77, R78). -/

namespace Sys2Proof

/-- "An assembler refuses `RESET p` with p outside 0 to 255. It accepts any p in 0 to 255, including p ≥ P"
(30_encoding.md R77). -/
def presetIndexFits (p : Nat) : Bool := decide (p ≤ 255)

/-- The counts of the pseudo-statements start at 1 (30_encoding.md R78). -/
def countFits (n : Nat) : Bool := decide (1 ≤ n)

/-- The statement is one the assembler accepts (30_encoding.md R77, R78). -/
def Stmt.wellFormed : Stmt → Bool
  | .idle => true
  | .tick => true
  | .reset p => presetIndexFits p
  | .ticks n => countFits n
  | .idles n => countFits n
  | .tickwait n => countFits n
  | .recomputes k => countFits k
  | .poweron p => presetIndexFits p

/-- A program the assembler accepts. -/
def programWellFormed (prog : List Stmt) : Bool := prog.all Stmt.wellFormed

end Sys2Proof
end

