-- ==== Sys2Proof/Machine/Assembler.lean ====
section
/-! DEFINITION. The assembler notation: what a statement expands to, the words of a program, and the reading of program
text (30_encoding.md R77 to R79).  The notation stands for control words and has no meaning beyond them. -/

namespace Sys2Proof

/-- The operations a statement stands for, in order; `b` is the instance's MOD_BASE (30_encoding.md R77, R78). -/
def Stmt.expand (b : Nat) : Stmt → List Instr
  | .idle => [.idle]
  | .tick => [.tick]
  | .reset p => [.reset (BitVec.ofNat 8 p)]
  | .ticks n => List.replicate n .tick
  | .idles n => List.replicate n .idle
  | .tickwait n => .tick :: List.replicate (n - 1) .idle
  | .recomputes k => List.replicate (k * b) .tick
  | .poweron p => [.reset (BitVec.ofNat 8 p)]

/-- The operations of a program, in order (30_encoding.md R79). -/
def programOps (b : Nat) (prog : List Stmt) : List Instr := prog.flatMap (Stmt.expand b)

/-- Why a program text is refused. -/
inductive AsmError where
  /-- A line that is no statement of the notation. -/
  | unknownStatement
  /-- An operand that is no decimal or hexadecimal number. -/
  | badNumber
  /-- A preset index above 255 or a count of 0 (30_encoding.md R77, R78). -/
  | outOfRange
deriving DecidableEq, Repr

/-- The words of a program, one per clock edge; a statement with a number out of range is refused (30_encoding.md R77,
R79). -/
def assemble (b : Nat) (prog : List Stmt) : Except AsmError (List ControlWord) :=
  if programWellFormed prog then .ok ((programOps b prog).map encode) else .error .outOfRange

/-- The pieces of a text between the characters that `sep` accepts. -/
def splitChars (sep : Char → Bool) : List Char → List (List Char)
  | [] => [[]]
  | c :: cs =>
    if sep c then [] :: splitChars sep cs
    else match splitChars sep cs with
      | [] => [[c]]
      | piece :: pieces => (c :: piece) :: pieces

/-- The value of a digit in the given base, letters in either case. -/
def digitValue (base : Nat) (c : Char) : Option Nat :=
  let v :=
    if '0'.toNat ≤ c.toNat ∧ c.toNat ≤ '9'.toNat then c.toNat - '0'.toNat
    else if 'a'.toNat ≤ c.toNat ∧ c.toNat ≤ 'f'.toNat then c.toNat - 'a'.toNat + 10
    else if 'A'.toNat ≤ c.toNat ∧ c.toNat ≤ 'F'.toNat then c.toNat - 'A'.toNat + 10
    else base
  if v < base then some v else none

/-- The number a digit string stands for, after the digits already read. -/
def readDigits (base acc : Nat) : List Char → Option Nat
  | [] => some acc
  | c :: cs =>
    match digitValue base c with
    | some v => readDigits base (acc * base + v) cs
    | none => none

/-- "Numbers are decimal, or hexadecimal with a `0x` prefix" (30_encoding.md R77). -/
def readNumber : List Char → Except AsmError Nat
  | [] => .error .badNumber
  | '0' :: 'x' :: [] => .error .badNumber
  | '0' :: 'x' :: c :: cs =>
    match readDigits 16 0 (c :: cs) with
    | some n => .ok n
    | none => .error .badNumber
  | c :: cs =>
    match readDigits 10 0 (c :: cs) with
    | some n => .ok n
    | none => .error .badNumber

/-- The statement a keyword and one number make. -/
def readOneOperand (keyword : List Char) (n : Nat) : Except AsmError Stmt :=
  if keyword = "RESET".toList then .ok (.reset n)
  else if keyword = "TICKS".toList then .ok (.ticks n)
  else if keyword = "IDLES".toList then .ok (.idles n)
  else if keyword = "TICKWAIT".toList then .ok (.tickwait n)
  else if keyword = "RECOMPUTES".toList then .ok (.recomputes n)
  else if keyword = "POWERON".toList then .ok (.poweron n)
  else .error .unknownStatement

/-- The statement of one line's words; a line without words holds none (log 17). -/
def readWords : List (List Char) → Except AsmError (Option Stmt)
  | [] => .ok none
  | [keyword] =>
    if keyword = "IDLE".toList then .ok (some .idle)
    else if keyword = "TICK".toList then .ok (some .tick)
    else .error .unknownStatement
  | [keyword, operand] => do
    let n ← readNumber operand
    let stmt ← readOneOperand keyword n
    .ok (some stmt)
  | _ => .error .unknownStatement

/-- One line: the text before a `;`, cut into words at blanks (30_encoding.md R77; log 17). -/
def readLine (line : List Char) : Except AsmError (Option Stmt) :=
  readWords ((splitChars (fun c => c == ' ' || c == '\t' || c == '\r') (line.takeWhile (· != ';'))).filter (· ≠ []))

/-- The statements of a list of lines, in order. -/
def readLines : List (List Char) → Except AsmError (List Stmt)
  | [] => .ok []
  | line :: lines => do
    let stmt ← readLine line
    let stmts ← readLines lines
    .ok (stmt.toList ++ stmts)

/-- "A program is a list of lines. Each line holds one statement, optionally followed by a comment" (30_encoding.md
R77). -/
def parseProgram (text : List Char) : Except AsmError (List Stmt) := readLines (splitChars (· == '\n') text)

/-- The words of a program text (30_encoding.md R77 to R79). -/
def assembleText (b : Nat) (text : List Char) : Except AsmError (List ControlWord) := do
  let prog ← parseProgram text
  assemble b prog

end Sys2Proof
end

