-- ==== Sys2Proof/Machine/ClosedForm.lean ====
section
/-! DEFINITION. The closed form of the engine registers after n TICKs (41_phase_counter.md R130).  The step does not
call it: statements compare runs of the step with it. -/

namespace Sys2Proof.Machine

/-- `c = 768·B`, one full heartbeat cycle in TICKs (41_phase_counter.md R128, R130). -/
def cycleTicks (c : Config) : Nat := 768 * c.modBase

/-- SYS after n TICKs (41_phase_counter.md R130). -/
def closedSys (c : Config) (n : Nat) : Phase :=
  if n % cycleTicks c < 256 * c.modBase then .diastole else .systole

/-- `k`, the phase step after n TICKs (41_phase_counter.md R130). -/
def closedStep (c : Config) (n : Nat) : Nat :=
  if n % cycleTicks c < 256 * c.modBase then n % cycleTicks c / c.modBase
  else (n % cycleTicks c - 256 * c.modBase) / (2 * c.modBase)

/-- TCNT after n TICKs (41_phase_counter.md R130). -/
def closedTcnt (c : Config) (n : Nat) : Nat :=
  if n % cycleTicks c < 256 * c.modBase then n % cycleTicks c % c.modBase
  else (n % cycleTicks c - 256 * c.modBase) % (2 * c.modBase)

/-- `r`, the recomputations among n TICKs (41_phase_counter.md R130). -/
def closedRecomputations (c : Config) (n : Nat) : Nat :=
  512 * (n / cycleTicks c) +
    match closedSys c n with
    | .diastole => closedStep c n
    | .systole => 256 + closedStep c n

/-- The phase whose number is x mod 2: 0 is Diastole, 1 is Systole. -/
def phaseOf (x : Nat) : Phase := if x % 2 = 0 then .diastole else .systole

/-- The value the r-th recomputation after a RESET writes to OUT, r ≥ 1, with preset numerator m
(41_phase_counter.md R130). -/
def recomputedOut (c : Config) (m r : Nat) : Byte :=
  match c.order with
  | .lookupFirst => scale c (memRead c.wave (BitVec.ofNat 8 (r - 1))) (phaseOf ((r - 1) / 256)) m
  | .advanceFirst => scale c (memRead c.wave (BitVec.ofNat 8 r)) (phaseOf (r / 256)) m

/-- OUT after n TICKs (41_phase_counter.md R130). -/
def closedOut (c : Config) (m n : Nat) : Byte :=
  if closedRecomputations c n = 0 then 0 else recomputedOut c m (closedRecomputations c n)

/-- The engine registers after n TICKs since a RESET that latched `psel`, whose preset numerator is m
(41_phase_counter.md R130). -/
def closedForm (c : Config) (psel : Byte) (m n : Nat) : Engine where
  sys := closedSys c n
  pstep := BitVec.ofNat 8 (closedStep c n)
  ival := interval c (closedSys c n)
  tcnt := closedTcnt c n
  out := closedOut c m n
  psel := psel

end Sys2Proof.Machine
end

