-- ==== Sys2Proof/Machine/ScalerExact.lean ====
section
/-! DEFINITION. The scaler's value as the spec defines it, over the exact rationals (43_brightness_scaler.md R151 to
R154; 00_scope.md R11).  The step does not call it: statements compare the step's integer datapath with it (log 13). -/

namespace Sys2Proof.Machine

/-- `Damp(s, ph)` with the factor 0.6 = 3/5 (43_brightness_scaler.md R151). -/
def exactDamp (c : Config) (sample : Byte) : Phase → ℚ
  | .diastole => sample.toNat
  | .systole => if c.dampTrunc then ((⌊(3 * sample.toNat / 5 : ℚ)⌋₊ : ℕ) : ℚ) else 3 * sample.toNat / 5

/-- f = BASE_NUM / D (43_brightness_scaler.md R152). -/
def baseline (c : Config) : ℚ := c.baseNum / c.fracDen

/-- `Blend(sd)` (43_brightness_scaler.md R152). -/
def exactBlend (c : Config) (sd : ℚ) : ℚ :=
  if c.blendTrunc then ((⌊255 * baseline c + sd * (1 - baseline c)⌋₊ : ℕ) : ℚ)
  else 255 * baseline c + sd * (1 - baseline c)

/-- `y = x · M / D` (43_brightness_scaler.md R153). -/
def exactDuty (c : Config) (sample : Byte) (ph : Phase) (m : Nat) : ℚ :=
  exactBlend c (exactDamp c sample ph) * m / c.fracDen

/-- `d = floor(y)` (43_brightness_scaler.md R154). -/
def exactFloor (c : Config) (sample : Byte) (ph : Phase) (m : Nat) : ℕ := ⌊exactDuty c sample ph m⌋₊

end Sys2Proof.Machine
end

