-- ==== Sys2Proof/Safety.lean ====
section
/-! DEFINITION. The terms statements use: runs of operations, what is reachable from a RESET, what a safe state is, and
the host's contract with the block (10_state.md R33, R41; 70_reset_and_hazards.md R232). -/

namespace Sys2Proof.Machine

/-- A run of operations, one per edge; it ends early at a refusal. -/
def runOps : List Instr → State → Host.Outcome State Fault Refusal
  | [], s => .next s
  | i :: rest, s =>
    match exec i s with
    | .next t => runOps rest t
    | .fault f => .fault f
    | .refused r => .refused r

/-- The states after each edge of a run of operations, in order, up to a refusal. -/
def statesAlong : List Instr → State → List State
  | [], _ => []
  | i :: rest, s =>
    match exec i s with
    | .next t => t :: statesAlong rest t
    | .fault _ => []
    | .refused _ => []

/-- The trace of observed port values, one per edge (10_state.md R41). -/
def portTrace (ops : List Instr) (s : State) : List (Option PortValues) := (statesAlong ops s).map State.observe

/-- An operation that is no RESET. -/
def isSessionOp : Instr → Bool
  | .idle => true
  | .tick => true
  | .reset _ => false

/-- An operation sequence without RESET: what the host presents after it has released `rst`. -/
def sessionOps (ops : List Instr) : Bool := ops.all isSessionOp

/-- The number of TICKs among operations. -/
def tickCount (ops : List Instr) : Nat := ops.count .tick

/-- An outcome without what the host drives on the pins: the block's own part of it. -/
def withoutInputs : Host.Outcome State Fault Refusal → Host.Outcome State Fault Refusal
  | .next s => .next { s with pins := 0, stimulus := [] }
  | .fault f => .fault f
  | .refused r => .refused r

/-- A state reached from a RESET by any sequence of operations (10_state.md R33). -/
inductive Reachable : State → Prop where
  | afterReset (p : Byte) (s t : State) (h : exec (.reset p) s = .next t) : Reachable t
  | afterOp (i : Instr) (s t : State) (hs : Reachable s) (h : exec i s = .next t) : Reachable t

/-- The safe states: a configuration an instance can be built with, its table in canonical form, and, once a RESET has
happened, the four invariants of 10_state.md R33. -/
def State.safe (s : State) : Prop :=
  s.cfg.admitted = true ∧ Memory.wf s.cfg.wave = true ∧ (s.life = .running → s.inv = true)

/-- The states from which every operation is admitted (40_operations.md R100): an instance that can be built, a RESET
has happened, and no invariant is broken. -/
def State.ready (s : State) : Prop := s.cfg.admitted = true ∧ s.life = .running ∧ s.inv = true

/-- The host's contract over one session, as the block sees it (70_reset_and_hazards.md R232, duties 1, 2, 3 and 5;
log 16): `rst` is held for at least one edge, the last of them presents the resolved index p, and no further RESET
follows.  The liberties (any index at the earlier edges, any IDLE edges) are left open. -/
def HostSession (c : Config) (p : Byte) (ops : List Instr) : Prop :=
  p.toNat < c.presetCount ∧
  ∃ (held : List Byte) (session : List Instr),
    ops = held.map Instr.reset ++ Instr.reset p :: session ∧ sessionOps session = true

end Sys2Proof.Machine
end

