-- ==== Sys2Proof/Certificates/Slice0/Obligations.lean ====
section
/-! DEFINITION. The statements for the provers.  Unless one says otherwise it holds for EVERY configuration an instance
can be built with (00_scope.md R7, R8), since the configuration is a field of the state the statement quantifies
over. -/

open Sys2Proof Sys2Proof.Machine

/-! ## Encoding -/

/-- 30_encoding.md R73: each 10-bit word matches exactly one row of the opcode map, and decodes to its operation. -/
def Obligations.EveryWordMatchesExactlyOneRow : Prop :=
  ∀ cw : ControlWord,
    ((decodeControl cw = .idle ∧ cw &&& 0x003 = 0x000 ∧ cw &&& 0x003 ≠ 0x001 ∧ cw &&& 0x002 ≠ 0x002) ∨
     (decodeControl cw = .tick ∧ cw &&& 0x003 ≠ 0x000 ∧ cw &&& 0x003 = 0x001 ∧ cw &&& 0x002 ≠ 0x002) ∨
     ((∃ p, decodeControl cw = .reset p) ∧ cw &&& 0x003 ≠ 0x000 ∧ cw &&& 0x003 ≠ 0x001 ∧ cw &&& 0x002 = 0x002)) ∧
    (opcodeTable.filter fun row => row.selects cw) = [opcodeRow (decodeControl cw)]

/-- 30_encoding.md R72: the operand is `CW[9:2]`, zero-extended where it is compared; RESET resolves it into PSEL; IDLE
and TICK ignore it, and its value at their edge has no effect. -/
def Obligations.OperandIsReadByResetAlone : Prop :=
  (∀ cw : ControlWord, cw.getLsbD 1 = true → decodeControl cw = .reset (cw.extractLsb' 2 8)) ∧
  (∀ (s : State) (p : Byte), s.cfg.admitted = true →
    ∃ t, exec (.reset p) s = .next t ∧ t.psel = if p.setWidth 64 < BitVec.ofNat 64 s.cfg.presetCount then p else 0) ∧
  (∀ (p q : Byte) (tick : Bool), decodeControl (controlWord p false tick) = decodeControl (controlWord q false tick)) ∧
  (∀ (s : State) (p q : Byte) (tick : Bool) (next : ControlWord) (rest : List ControlWord),
    step { s with pins := controlWord p false tick, stimulus := next :: rest } =
      step { s with pins := controlWord q false tick, stimulus := next :: rest })

/-- 30_encoding.md R75: all 1024 words decode; a word with rst = 1 and tick = 1 is a RESET whose tick is discarded, at
this edge and at every later one. -/
def Obligations.TickWithResetIsDiscarded : Prop :=
  (∀ w : Nat, w < 1024 → decodeWord w = .ok (decodeControl (BitVec.ofNat 10 w))) ∧
  (∀ p : Byte, decodeControl (controlWord p true true) = .reset p) ∧
  (∀ (s : State) (p : Byte) (next : ControlWord) (rest : List ControlWord),
    step { s with pins := controlWord p true true, stimulus := next :: rest } =
      step { s with pins := controlWord p true false, stimulus := next :: rest })

/-- The decoder reads exactly the bits the encoding gives an operation, and the encoder writes them: a word decodes to
an operation if and only if it agrees with the operation's encoding on those bits; so decoding what was encoded gives
it back, for every operation and operand (30_encoding.md R71 to R77). -/
def Obligations.DecodeAndEncodeAgree : Prop :=
  (∀ (i : Instr) (cw : ControlWord), decodeControl cw = i ↔ cw &&& readMask i = encode i) ∧
  (∀ i : Instr, decodeControl (encode i) = i ∧ decodeWord (encode i).toNat = .ok i ∧
    decodeTableWord 10 (encode i).toNat = some i) ∧
  (∀ w : Nat, 1024 ≤ w → decodeWord w = .error .widerThanTenBits)

/-- A few words written out from the encoding decode to what they stand for (the list of 95_test_vectors.md, L2). -/
def Obligations.SampleWordsDecode : Prop :=
  decodeWord 0x000 = .ok .idle ∧ decodeWord 0x001 = .ok .tick ∧ decodeWord 0x002 = .ok (.reset 0) ∧
  decodeWord 0x00A = .ok (.reset 2) ∧ decodeWord 0x00F = .ok (.reset 3) ∧ decodeWord 0x01E = .ok (.reset 7) ∧
  decodeWord 0x3FC = .ok .idle ∧ decodeWord 0x3FD = .ok .tick ∧ decodeWord 0x0F5 = .ok .tick ∧
  decodeWord 0x3FF = .ok (.reset 255)

/-- 30_encoding.md R78: the exact words each pseudo-statement expands to (and, from R77, those of the base
statements). -/
def Obligations.StatementsExpandToTheirWords : Prop :=
  (∀ b : Nat, assemble b [.idle] = .ok [0x000] ∧ assemble b [.tick] = .ok [0x001]) ∧
  (∀ b p : Nat, p ≤ 255 → assemble b [.reset p] = .ok [BitVec.ofNat 10 (p <<< 2 ||| 0x002)] ∧
    assemble b [.poweron p] = assemble b [.reset p]) ∧
  (∀ b p : Nat, 255 < p → assemble b [.reset p] = .error .outOfRange ∧ assemble b [.poweron p] = .error .outOfRange) ∧
  (∀ b n : Nat, 1 ≤ n →
    assemble b [.ticks n] = .ok (List.replicate n 0x001) ∧
    assemble b [.idles n] = .ok (List.replicate n 0x000) ∧
    assemble b [.tickwait n] = .ok (0x001 :: List.replicate (n - 1) 0x000) ∧
    assemble b [.recomputes n] = .ok (List.replicate (n * b) 0x001))

/-- 30_encoding.md R79: an accepted program's encoding is the sequence of the control words of its expanded statements,
in order, one per edge, and the words decode to those operations. -/
def Obligations.ProgramWordsDecodeToTheProgram : Prop :=
  ∀ (b : Nat) (prog : List Stmt), programWellFormed prog = true →
    ∃ ws, assemble b prog = .ok ws ∧ ws.map decodeControl = prog.flatMap (Stmt.expand b) ∧
      (∀ q : List Stmt, programWellFormed q = true → ∃ vs, assemble b q = .ok vs ∧ assemble b (prog ++ q) = .ok (ws ++ vs))

/-- 30_encoding.md R77: a comment after `;` has no part in the statement its line holds. -/
def Obligations.CommentsHaveNoMeaning : Prop :=
  ∀ line comment : List Char, ';' ∉ line → readLine (line ++ ';' :: comment) = readLine line

/-! ## Edges, programs and outcomes -/

/-- An edge samples the one control word on the pins and performs the operation it selects (30_encoding.md R70).  The
rest is the model's own choice and no part of that rule: that the pins then take the host's next listed word, or hold
their level when none is left (log 5), and where `withFetchWord` places the word that the very next edge runs (log 6). -/
def Obligations.EdgeRunsTheSampledWord : Prop :=
  (∀ (s : State) (i : Instr), decodeControl s.pins = i →
    step s = exec i { s with pins := s.stimulus.headD s.pins, stimulus := s.stimulus.tail }) ∧
  (∀ (s : State) (nbits w : Nat) (i : Instr), w < 2 ^ nbits → decodeTableWord nbits w = some i →
    step (s.withFetchWord nbits w) =
      exec i { s with pins := s.stimulus.headD (BitVec.ofNat 10 w), stimulus := s.stimulus.tail })

/-- Running the machine for as many edges as a loaded program has words performs the operations its words select, one
per edge and in order, whether the run goes on or is refused (00_scope.md R3; 30_encoding.md R70, R79). -/
def Obligations.ProgramRunsOneWordPerEdge : Prop :=
  ∀ (s : State) (ws : List ControlWord),
    withoutInputs (Host.Core.run Sys2Proof.core ws.length (s.loadProgram ws)) =
      withoutInputs (runOps (ws.map decodeControl) s)

/-- 70_reset_and_hazards.md R240: every edge with rst = 0 and tick = 1 is one TICK, and nothing else is: the engine
after a program without RESET is the engine after as many TICKs as it has words with tick = 1, so a strobe held for k
edges makes k TICKs; a tick presented with rst = 1 is discarded. -/
def Obligations.EveryStrobedEdgeIsOneTick : Prop :=
  (∀ (s : State) (ws : List ControlWord), s.ready → (∀ cw ∈ ws, cw.getLsbD 1 = false) →
    ∃ t u, Host.Core.run Sys2Proof.core ws.length (s.loadProgram ws) = .next t ∧
      runOps (List.replicate (ws.countP fun cw => cw.getLsbD 0) .tick) s = .next u ∧
      State.engine t = u.engine) ∧
  (∀ p : Byte, decodeControl (controlWord p true true) = decodeControl (controlWord p true false))

/-- 40_operations.md R100: the three outcomes of an operation (and, as R101 corner case e has it, RESET is admitted from
every state). -/
def Obligations.OperationHasItsThreeOutcomes : Prop :=
  ∀ s : State, s.cfg.admitted = true →
    (s.life = .unreset → exec .idle s = .refused .illegalState ∧ exec .tick s = .refused .illegalState) ∧
    (s.life = .running →
      ¬ (s.ival = (if s.sys = .systole then 2 * s.cfg.modBase else s.cfg.modBase) ∧ s.tcnt < s.ival ∧
          s.psel.toNat < s.cfg.presetCount ∧ s.pcnt.toNat ≤ 254) →
      exec .idle s = .refused .illegalState ∧ exec .tick s = .refused .illegalState) ∧
    (s.life = .running → s.ival = (if s.sys = .systole then 2 * s.cfg.modBase else s.cfg.modBase) → s.tcnt < s.ival →
      s.psel.toNat < s.cfg.presetCount → s.pcnt.toNat ≤ 254 → ∀ i, ∃ t, exec i s = .next t) ∧
    (∀ p : Byte, ∃ t, exec (.reset p) s = .next t)

/-- 60_exceptions.md R212: a step has exactly these outcomes, and building an instance has the other refusal.  That a
step of a state whose configuration is not admitted is refused as well is the model's own choice (log 11). -/
def Obligations.OutcomesAreNextOrTheTwoRefusals : Prop :=
  (∀ s : State, (∃ t, step s = .next t) ∨ step s = .refused .illegalState ∨
    (s.cfg.admitted = false ∧ step s = .refused .illegalConfig)) ∧
  (∀ (c : Config) (contents : State),
    (c.admitted = true ∧ buildInstance c contents = .next (State.powerOn c contents)) ∨
    (c.admitted = false ∧ buildInstance c contents = .refused .illegalConfig))

/-- Which configurations are refused (00_scope.md R7, R8, R14; 95_test_vectors.md X8), and that every operation of such
a state is refused too, which is the model's own choice (log 11); a multiplier above 1 is admitted (log 10). -/
def Obligations.IllegalConfigurationsAreRefused : Prop :=
  (∀ c : Config, c.admitted = true ↔
    (1 ≤ c.presetNum.length ∧ c.presetNum.length ≤ 256 ∧ 1 ≤ c.fracDen ∧ c.baseNum < c.fracDen ∧
      (∀ m ∈ c.presetNum, 1 ≤ m) ∧ 1 ≤ c.modBase ∧ 2 ≤ c.tcntW ∧ 2 * c.modBase ≤ 2 ^ c.tcntW - 1)) ∧
  (∀ c : Config, c.legal = true ↔ (c.admitted = true ∧ ∀ m ∈ c.presetNum, m ≤ c.fracDen)) ∧
  (∀ (i : Instr) (s : State), s.cfg.admitted = false → exec i s = .refused .illegalConfig)

/-! ## RESET and power-on -/

/-- 40_operations.md R101: RESET p writes every register, from any state of an instance, and changes nothing else. -/
def Obligations.ResetWritesEveryRegister : Prop :=
  (∀ (s : State) (p : Byte), s.cfg.admitted = true →
    exec (.reset p) s = .next
      { cfg := s.cfg, life := .running, pins := s.pins, stimulus := s.stimulus,
        sys := .diastole, pstep := 0, ival := s.cfg.modBase, tcnt := 0, out := 0,
        psel := if p.toNat < s.cfg.presetCount then p else 0, wstb := false, pcnt := 0, dact := 0 }) ∧
  (∀ cw : ControlWord, cw &&& 0x002 = 0x002 → decodeControl cw = .reset (cw.extractLsb' 2 8))

/-- 70_reset_and_hazards.md R231: a RESET held for several edges depends only on the last index, and the ports are 0 all
the while. -/
def Obligations.HeldResetDependsOnTheLastIndex : Prop :=
  ∀ (s : State) (held : List Byte) (p : Byte), s.cfg.admitted = true →
    ∃ t, exec (.reset p) s = .next t ∧ runOps (held.map Instr.reset ++ [.reset p]) s = .next t ∧
      portTrace (held.map Instr.reset ++ [.reset p]) s =
        List.replicate (held.length + 1) (some ⟨0, false, false⟩)

/-- 70_reset_and_hazards.md R242: a mid-session RESET puts the engine back at the start and the heartbeat restarts:
whatever ran before it leaves no trace. -/
def Obligations.MidSessionResetRestarts : Prop :=
  ∀ (s : State) (q p : Byte) (before : List Instr), s.cfg.admitted = true → sessionOps before = true →
    (∃ t, runOps (.reset q :: before ++ [.reset p]) s = .next t ∧ t.sys = .diastole ∧ t.pstep = 0 ∧ t.tcnt = 0 ∧
      t.out = 0 ∧ t.psel = if p.toNat < s.cfg.presetCount then p else 0) ∧
    (∀ after : List Instr, runOps (.reset q :: before ++ .reset p :: after) s = runOps (.reset p :: after) s)

/-- 70_reset_and_hazards.md R230: at power-on the registers hold unspecified values; only RESET is admitted; after it
every register has its reset value and the invariants hold, whatever the registers held. -/
def Obligations.PowerOnAdmitsOnlyReset : Prop :=
  ∀ (c : Config) (contents : State), c.admitted = true →
    exec .idle (State.powerOn c contents) = .refused .illegalState ∧
    exec .tick (State.powerOn c contents) = .refused .illegalState ∧
    (State.powerOn c contents).observe = none ∧
    ∀ p : Byte, ∃ t, exec (.reset p) (State.powerOn c contents) = .next t ∧ t.life = .running ∧
      t.ival = c.modBase ∧ t.sys = .diastole ∧ t.pstep = 0 ∧ t.tcnt = 0 ∧ t.out = 0 ∧ t.wstb = false ∧ t.pcnt = 0 ∧
      t.dact = 0 ∧ t.psel = (if p.toNat < c.presetCount then p else 0) ∧ t.inv = true ∧
      ∀ other : State, other.pins = contents.pins → other.stimulus = contents.stimulus →
        exec (.reset p) (State.powerOn c other) = .next t

/-- The reset state is safe and ready.  The values it has from the model's own choices (the reference configuration,
the index 0 at the RESET edge, the pins) are those of logs 2, 3 and 5. -/
def Obligations.ResetStateIsSafeAndReady : Prop := State.reset.safe ∧ State.reset.ready

/-! ## IDLE and TICK -/

/-- 40_operations.md R102: IDLE clears WSTB and steps the PWM stage, and changes nothing else. -/
def Obligations.IdleStepsOnlyThePwmStage : Prop :=
  (∀ s : State, s.ready →
    exec .idle s = .next
      { s with
        wstb := false
        pcnt := if s.pcnt = 254 then 0 else s.pcnt + 1
        dact := if s.pcnt = 254 then s.out else s.dact }) ∧
  (∀ cw : ControlWord, cw &&& 0x003 = 0x000 → decodeControl cw = .idle)

/-- 40_operations.md R103: TICK, its two cases whole, with every register it leaves alone left alone. -/
def Obligations.TickFollowsItsTransfers : Prop :=
  (∀ s : State, s.ready →
    let t1 := (s.tcnt + 1) % 2 ^ s.cfg.tcntW
    let p1 := s.pstep + 1
    let sys1 := if p1 = 0 then (if s.sys = .diastole then Phase.systole else Phase.diastole) else s.sys
    let a := if s.cfg.order = .lookupFirst then s.pstep else p1
    let ph := if s.cfg.order = .lookupFirst then s.sys else sys1
    let pcnt1 := if s.pcnt = 254 then 0 else s.pcnt + 1
    let dact1 := if s.pcnt = 254 then s.out else s.dact
    (t1 ≠ s.ival → exec .tick s = .next { s with tcnt := t1, wstb := true, pcnt := pcnt1, dact := dact1 }) ∧
    (t1 = s.ival → ∃ m, s.cfg.presetNum[s.psel.toNat]? = some m ∧
      exec .tick s = .next
        { s with
          tcnt := 0
          out := scale s.cfg (memRead s.cfg.wave a) ph m
          pstep := p1
          sys := sys1
          ival := if p1 = 0 then (if sys1 = .systole then 2 * s.cfg.modBase else s.cfg.modBase) else s.ival
          wstb := true
          pcnt := pcnt1
          dact := dact1 })) ∧
  (∀ cw : ControlWord, cw &&& 0x003 = 0x001 → decodeControl cw = .tick)

/-- Which operation may write which register (10_state.md R22, R23, R24, R25, R27, R28, R31), and that no operation
changes the configuration, a byte of the ROM, or what the host drives (20_memory.md R54, R63). -/
def Obligations.OnlyTheNamedOperationsWriteARegister : Prop :=
  ∀ (i : Instr) (s t : State), exec i s = .next t →
    t.cfg = s.cfg ∧ t.pins = s.pins ∧ t.stimulus = s.stimulus ∧
    (∀ a : Byte, memRead t.cfg.wave a = memRead s.cfg.wave a) ∧
    ((∀ p, i ≠ .reset p) → t.life = s.life ∧ t.psel = s.psel ∧
      (i = .idle → t.sys = s.sys ∧ t.pstep = s.pstep ∧ t.ival = s.ival ∧ t.tcnt = s.tcnt ∧ t.out = s.out) ∧
      ((s.tcnt + 1) % 2 ^ s.cfg.tcntW ≠ s.ival →
        t.sys = s.sys ∧ t.pstep = s.pstep ∧ t.ival = s.ival ∧ t.out = s.out) ∧
      (s.pstep ≠ 255 → t.sys = s.sys ∧ t.ival = s.ival) ∧
      (s.pcnt ≠ 254 → t.dact = s.dact))

/-- 41_phase_counter.md R124: the phase flag changes only at a recomputation whose phase step wraps, where it inverts;
RESET aside there is no other transition. -/
def Obligations.PhaseTogglesExactlyAtTheWrap : Prop :=
  (∀ (i : Instr) (s t : State), exec i s = .next t → (∀ p, i ≠ .reset p) → t.sys ≠ s.sys →
    i = .tick ∧ (s.tcnt + 1) % 2 ^ s.cfg.tcntW = s.ival ∧ s.pstep = 255 ∧ t.pstep = 0 ∧ t.tcnt = 0 ∧
    t.ival = if t.sys = .systole then 2 * s.cfg.modBase else s.cfg.modBase) ∧
  (∀ s : State, s.ready → (s.tcnt + 1) % 2 ^ s.cfg.tcntW = s.ival →
    ∃ t, exec .tick s = .next t ∧ (s.pstep = 255 → t.sys ≠ s.sys) ∧ (s.pstep ≠ 255 → t.sys = s.sys))

/-- 20_memory.md R53: the preset read with i = PSEL is in range in every reachable state, and gives PRESET_NUM[i]; from
a state that breaks INV3 the outcome is `refuse IllegalState`. -/
def Obligations.PresetReadIsInRange : Prop :=
  (∀ s : State, Reachable s → ∃ m, presetRead s.cfg s.psel = some m ∧ s.cfg.presetNum[s.psel.toNat]? = some m) ∧
  (∀ s : State, s.cfg.admitted = true → s.cfg.presetCount ≤ s.psel.toNat → exec .tick s = .refused .illegalState)

/-- 20_memory.md R50: the byte at address a is the configuration's table entry a, for every table of 256 bytes. -/
def Obligations.RomHoldsTheTable : Prop :=
  ∀ (table : List Byte) (a : Byte), table.length = 256 →
    table[a.toNat]? = some (memRead (Memory.ofBytes table) a)

/-- 42_waveform_lut.md R144: the reference table's properties. -/
def Obligations.ReferenceTableShape : Prop :=
  memRead waveRef 0 = 0 ∧
  (∀ a : Byte, memRead waveRef a = 255 ↔ a = 128) ∧
  (∀ a : Byte, memRead waveRef a = 0 ↔ (a ≤ 5 ∨ 251 ≤ a)) ∧
  (∀ a : Byte, a ≠ 0 → memRead waveRef a = memRead waveRef (0 - a)) ∧
  (∀ a : Byte, a < 128 → memRead waveRef a ≤ memRead waveRef (a + 1)) ∧
  (∀ a : Byte, 128 ≤ a → a < 255 → memRead waveRef (a + 1) ≤ memRead waveRef a) ∧
  ((List.range 256).map fun a => (memRead waveRef (BitVec.ofNat 8 a)).toNat).sum = 32513

/-! ## Invariants -/

/-- Every step from a safe state that goes on ends in a safe state: the configuration stays one an instance can be built
with, its table canonical, and the four invariants of 10_state.md R33 hold once a RESET has happened. -/
def Obligations.EveryStepKeepsTheStateSafe : Prop :=
  ∀ s t : State,
    s.cfg.admitted = true → Memory.wf s.cfg.wave = true →
    (s.life = .running → s.ival = (if s.sys = .systole then 2 * s.cfg.modBase else s.cfg.modBase) ∧ s.tcnt < s.ival ∧
      s.psel.toNat < s.cfg.presetCount ∧ s.pcnt.toNat ≤ 254) →
    step s = .next t →
    t.cfg.admitted = true ∧ Memory.wf t.cfg.wave = true ∧
    (t.life = .running → t.ival = (if t.sys = .systole then 2 * t.cfg.modBase else t.cfg.modBase) ∧ t.tcnt < t.ival ∧
      t.psel.toNat < t.cfg.presetCount ∧ t.pcnt.toNat ≤ 254)

/-- 10_state.md R33: every state reached from a RESET by any sequence of operations meets the four invariants (so no
operation is refused there), and a step from a state that breaks one is refused, RESET aside. -/
def Obligations.ReachableStatesMeetTheInvariants : Prop :=
  (∀ s : State, Reachable s →
    s.life = .running ∧ s.ival = (if s.sys = .systole then 2 * s.cfg.modBase else s.cfg.modBase) ∧ s.tcnt < s.ival ∧
    s.psel.toNat < s.cfg.presetCount ∧ s.pcnt.toNat ≤ 254 ∧ ∀ i, ∃ t, exec i s = .next t ∧ Reachable t) ∧
  (∀ s : State, s.cfg.admitted = true →
    ¬ (s.ival = (if s.sys = .systole then 2 * s.cfg.modBase else s.cfg.modBase) ∧ s.tcnt < s.ival ∧
        s.psel.toNat < s.cfg.presetCount ∧ s.pcnt.toNat ≤ 254) →
    exec .idle s = .refused .illegalState ∧ exec .tick s = .refused .illegalState)

/-! ## The phase counter over runs -/

/-- 41_phase_counter.md R127: from a state with TCNT = 0 (after a RESET or a recomputation) nothing is recomputed for
IVAL − 1 TICKs and the IVAL-th recomputes, IVAL being B in Diastole and 2·B in Systole; the first recomputation after a
RESET is the B-th TICK and OUT is 0 before it. -/
def Obligations.RecomputationsAreOneIntervalApart : Prop :=
  (∀ (s : State) (ops : List Instr), s.ready → s.tcnt = 0 → sessionOps ops = true →
    let gap := if s.sys = .systole then 2 * s.cfg.modBase else s.cfg.modBase
    tickCount ops ≤ gap →
    ∃ t, runOps ops s = .next t ∧
      (tickCount ops < gap → t.tcnt = tickCount ops ∧ t.pstep = s.pstep ∧ t.out = s.out ∧ t.sys = s.sys) ∧
      (tickCount ops = gap → t.tcnt = 0 ∧ t.pstep = s.pstep + 1)) ∧
  (∀ (s : State) (p : Byte) (ops : List Instr), s.cfg.admitted = true → sessionOps ops = true →
    tickCount ops ≤ s.cfg.modBase →
    ∃ t, runOps (.reset p :: ops) s = .next t ∧
      (tickCount ops < s.cfg.modBase → t.pstep = 0 ∧ t.out = 0) ∧
      (tickCount ops = s.cfg.modBase → t.pstep = 1 ∧ t.tcnt = 0))

/-- 41_phase_counter.md R128: a Diastole lasts 256 recomputations, 256·B TICKs, a Systole 256 recomputations, 512·B
TICKs, and a full cycle 768·B TICKs, from the start of any phase. -/
def Obligations.PhasesLastTwoHundredFiftySixRecomputations : Prop :=
  ∀ (s : State) (ops : List Instr), s.ready → s.tcnt = 0 → s.pstep = 0 → sessionOps ops = true →
    let gap := if s.sys = .systole then 2 * s.cfg.modBase else s.cfg.modBase
    ∃ t, runOps ops s = .next t ∧
      (tickCount ops < 256 * gap → t.sys = s.sys ∧ t.ival = gap ∧ t.pstep.toNat = tickCount ops / gap) ∧
      (tickCount ops = 256 * gap → t.sys ≠ s.sys ∧ t.pstep = 0 ∧ t.tcnt = 0 ∧
        t.ival = if t.sys = .systole then 2 * s.cfg.modBase else s.cfg.modBase) ∧
      (tickCount ops = 768 * s.cfg.modBase → t.sys = s.sys ∧ t.pstep = 0 ∧ t.tcnt = 0 ∧ t.ival = gap)

/-- 41_phase_counter.md R130: the closed form of the engine registers after a RESET and n TICKs, with any IDLE edges
between them. -/
def Obligations.EngineHasItsClosedForm : Prop :=
  ∀ (s : State) (p : Byte) (ops : List Instr) (m : Nat), s.cfg.admitted = true → sessionOps ops = true →
    s.cfg.presetNum[(resolvePreset s.cfg p).toNat]? = some m →
    ∃ t, runOps (.reset p :: ops) s = .next t ∧
      t.engine = closedForm s.cfg (resolvePreset s.cfg p) m (tickCount ops)

/-- 41_phase_counter.md R131: 768·B TICKs later the engine registers are the same for n ≥ B, and for n < B they differ
only in OUT, which is 0 at n. -/
def Obligations.EngineIsPeriodic : Prop :=
  ∀ (s : State) (p : Byte) (ops later : List Instr), s.cfg.admitted = true → sessionOps ops = true →
    sessionOps later = true → tickCount later = tickCount ops + 768 * s.cfg.modBase →
    ∃ t u, runOps (.reset p :: ops) s = .next t ∧ runOps (.reset p :: later) s = .next u ∧
      (s.cfg.modBase ≤ tickCount ops → u.engine = t.engine) ∧
      (tickCount ops < s.cfg.modBase → t.out = 0 ∧ { u.engine with out := 0 } = t.engine)

/-- 41_phase_counter.md R132: the duty value each recomputation of each cycle q gives and for how many TICKs it is held,
in both lookup orders. -/
def Obligations.DutySequenceOfACycle : Prop :=
  ∀ (s : State) (p : Byte) (ops : List Instr) (m : Nat), s.cfg.admitted = true → sessionOps ops = true →
    s.cfg.presetNum[(resolvePreset s.cfg p).toNat]? = some m →
    let b := s.cfg.modBase
    let n := tickCount ops
    let value := fun (a : Nat) (ph : Phase) => scale s.cfg (memRead s.cfg.wave (BitVec.ofNat 8 a)) ph m
    ∃ t, runOps (.reset p :: ops) s = .next t ∧
      (n < b → t.out = 0) ∧
      ∀ q r : Nat,
        (s.cfg.order = .lookupFirst →
          (1 ≤ r → r ≤ 255 → 768 * b * q + r * b ≤ n → n < 768 * b * q + r * b + b →
            t.out = value (r - 1) .diastole) ∧
          (768 * b * q + 256 * b ≤ n → n < 768 * b * q + 256 * b + 2 * b → t.out = value 255 .diastole) ∧
          (257 ≤ r → r ≤ 511 → 768 * b * q + 256 * b + (r - 256) * (2 * b) ≤ n →
            n < 768 * b * q + 256 * b + (r - 256) * (2 * b) + 2 * b → t.out = value (r - 257) .systole) ∧
          (768 * b * q + 768 * b ≤ n → n < 768 * b * q + 768 * b + b → t.out = value 255 .systole)) ∧
        (s.cfg.order = .advanceFirst →
          (1 ≤ r → r ≤ 255 → 768 * b * q + r * b ≤ n → n < 768 * b * q + r * b + b →
            t.out = value r .diastole) ∧
          (768 * b * q + 256 * b ≤ n → n < 768 * b * q + 256 * b + 2 * b → t.out = value 0 .systole) ∧
          (257 ≤ r → r ≤ 511 → 768 * b * q + 256 * b + (r - 256) * (2 * b) ≤ n →
            n < 768 * b * q + 256 * b + (r - 256) * (2 * b) + 2 * b → t.out = value (r - 256) .systole) ∧
          (768 * b * q + 768 * b ≤ n → n < 768 * b * q + 768 * b + b → t.out = value 0 .diastole))

/-- 40_operations.md R106: the engine registers depend on the number of TICKs alone, not on where IDLE edges fall. -/
def Obligations.IdleEdgesDoNotChangeTheEngine : Prop :=
  ∀ (s : State) (ops : List Instr), s.ready → sessionOps ops = true →
    ∃ t u, runOps ops s = .next t ∧ runOps (List.replicate (tickCount ops) .tick) s = .next u ∧ t.engine = u.engine

/-- 30_encoding.md R78's pseudo-statement RECOMPUTES k does what its name says when it starts in Diastole with TCNT = 0
and crosses no phase boundary. -/
def Obligations.RecomputesStatementRecomputes : Prop :=
  ∀ (s : State) (k : Nat), s.ready → s.sys = .diastole → s.tcnt = 0 → s.pstep.toNat + k ≤ 255 →
    ∃ t, runOps (Stmt.expand s.cfg.modBase (.recomputes k)) s = .next t ∧
      t.pstep.toNat = s.pstep.toNat + k ∧ t.sys = .diastole ∧ t.tcnt = 0

/-- A session the host runs by its contract is never refused, from the power-on state on, and keeps the host's preset
index from its last RESET on (70_reset_and_hazards.md R232, R235, R237; 10_state.md R28). -/
def Obligations.HostSessionKeepsItsPreset : Prop :=
  ∀ (c : Config) (contents : State) (p : Byte) (ops : List Instr), c.admitted = true → HostSession c p ops →
    ∃ t, runOps ops (State.powerOn c contents) = .next t ∧ t.psel = p ∧ t.life = .running ∧ t.inv = true

/-! ## The scaler -/

/-- 43_brightness_scaler.md R156: for every configuration, sample, phase and numerator the integer datapath gives the
exact rational function's floor, and under a legal numerator its intermediates fit the stated number of bits. -/
def Obligations.DatapathComputesTheExactScale : Prop :=
  (∀ (c : Config) (sample : Byte) (ph : Phase) (m : Nat), c.admitted = true →
    dutyDatapath c sample ph m = exactFloor c sample ph m) ∧
  (∀ (c : Config) (sample : Byte) (ph : Phase) (m : Nat), c.admitted = true → m ≤ c.fracDen →
    (blendFloor c + dampedSample sample ph * blendGain c) * m ≤ 255 * c.fracDen ^ 2 ∧
    (5 * blendFloor c + dampedFifths sample ph * blendGain c) * m ≤ 1275 * c.fracDen ^ 2 ∧
    (blendFloor c + dampedSample sample ph * blendGain c) * m < 2 ^ Nat.clog 2 (1275 * c.fracDen ^ 2 + 1) ∧
    (5 * blendFloor c + dampedFifths sample ph * blendGain c) * m < 2 ^ Nat.clog 2 (1275 * c.fracDen ^ 2 + 1)) ∧
  Nat.clog 2 (1275 * 100 ^ 2 + 1) = 24

/-- 43_brightness_scaler.md R155: the conversion to 8 bits keeps a value up to 255, and wraps or clamps a larger one,
which no legal numerator gives. -/
def Obligations.ConversionToEightBits : Prop :=
  (∀ (mode : OvfMode) (d : Nat), d ≤ 255 → (conv8 mode d).toNat = d) ∧
  (∀ d : Nat, 255 < d → (conv8 .wrap d).toNat = d % 256 ∧ (conv8 .clamp d).toNat = 255) ∧
  (∀ (c : Config) (sample : Byte) (ph : Phase) (m : Nat), c.admitted = true → m ≤ c.fracDen →
    dutyDatapath c sample ph m ≤ 255 ∧
    ∀ mode, scale { c with ovfMode := mode } sample ph m = scale c sample ph m)

/-- 43_brightness_scaler.md R157: the range of the duty value under a legal numerator: at most 255, reached; at least
the floor brightness, reached at sample 0. -/
def Obligations.DutyStaysInItsRange : Prop :=
  ∀ (c : Config) (m : Nat), c.admitted = true → 1 ≤ m → m ≤ c.fracDen →
    (∀ (sample : Byte) (ph : Phase), dutyDatapath c sample ph m ≤ 255 ∧
      (scale c sample ph m).toNat = dutyDatapath c sample ph m) ∧
    scale c 255 .diastole c.fracDen = 255 ∧
    (c.blendTrunc = false →
      (∀ (sample : Byte) (ph : Phase), ⌊255 * baseline c * (m / c.fracDen)⌋₊ ≤ (scale c sample ph m).toNat) ∧
      (∀ ph : Phase, (scale c 0 ph m).toNat = ⌊255 * baseline c * (m / c.fracDen)⌋₊)) ∧
    (c.blendTrunc = true →
      (∀ (sample : Byte) (ph : Phase),
        ⌊(⌊255 * baseline c⌋₊ : ℚ) * (m / c.fracDen)⌋₊ ≤ (scale c sample ph m).toNat) ∧
      (∀ ph : Phase, (scale c 0 ph m).toNat = ⌊(⌊255 * baseline c⌋₊ : ℚ) * (m / c.fracDen)⌋₊))

/-- 43_brightness_scaler.md R158: the scaler is monotone in the sample and in the numerator, and a Systole sample is
never brighter than the same sample in Diastole. -/
def Obligations.ScalerIsMonotone : Prop :=
  ∀ c : Config, c.admitted = true →
    (∀ (x y : Byte) (ph : Phase) (m : Nat), m ≤ c.fracDen → x ≤ y → scale c x ph m ≤ scale c y ph m) ∧
    (∀ (x : Byte) (ph : Phase) (m k : Nat), k ≤ c.fracDen → m ≤ k → scale c x ph m ≤ scale c x ph k) ∧
    (∀ (x : Byte) (m : Nat), m ≤ c.fracDen → scale c x .systole m ≤ scale c x .diastole m)

/-- 43_brightness_scaler.md R159: each truncation option can only lower the result, by at most 1, and both together by
at most 2. -/
def Obligations.TruncationCostsAtMostOneEach : Prop :=
  ∀ (c : Config) (sample : Byte) (ph : Phase) (m : Nat), c.admitted = true → m ≤ c.fracDen →
    let result := fun (damp blend : Bool) =>
      (scale { c with dampTrunc := damp, blendTrunc := blend } sample ph m).toNat
    (result true false ≤ result false false ∧ result false false ≤ result true false + 1) ∧
    (result false true ≤ result false false ∧ result false false ≤ result false true + 1) ∧
    (result true true ≤ result false false ∧ result false false ≤ result true true + 2)

/-! ## The output stage -/

/-- 44_pwm_output.md R170: the duty port is OUT, and it changes only at a RESET edge, to 0, and at a recomputation
TICK. -/
def Obligations.DutyPortHoldsBetweenRecomputations : Prop :=
  (∀ s : State, s.duty = s.out) ∧
  (∀ (i : Instr) (s t : State), exec i s = .next t → t.duty ≠ s.duty →
    ((∃ p, i = .reset p) ∧ t.duty = 0) ∨ (i = .tick ∧ (s.tcnt + 1) % 2 ^ s.cfg.tcntW = s.ival))

/-- 44_pwm_output.md R171: the write strobe is 1 after exactly the TICK edges, whatever OUT does, over any run of
operations from a ready state. -/
def Obligations.WriteStrobeFollowsEveryTick : Prop :=
  ∀ (s : State) (ops : List Instr), s.ready →
    (portTrace ops s).map (Option.map PortValues.dutyWr) = ops.map fun i => some (decide (i = .tick))

/-- 44_pwm_output.md R173: every IDLE and every TICK performs the same PWM step, from the registers before the edge;
RESET sets both registers to 0; INV4 is preserved. -/
def Obligations.PwmStepIsTheSameForIdleAndTick : Prop :=
  (∀ (s : State) (i : Instr), s.ready → i = .idle ∨ i = .tick →
    ∃ t, exec i s = .next t ∧
      (s.pcnt = 254 → t.pcnt = 0 ∧ t.dact = s.out) ∧
      (s.pcnt ≠ 254 → t.pcnt = s.pcnt + 1 ∧ t.dact = s.dact) ∧ t.pcnt.toNat ≤ 254) ∧
  (∀ (s t : State) (p : Byte), exec (.reset p) s = .next t → t.pcnt = 0 ∧ t.dact = 0)

/-- 44_pwm_output.md R174: a PWM period is 255 edges and uses one duty value throughout; the edge that ends it loads OUT
as held before that edge, so a value OUT takes at that edge waits for the next boundary, 255 edges later. -/
def Obligations.PeriodUsesOneDutyValue : Prop :=
  ∀ (s : State) (ops : List Instr) (last : Instr), s.ready → s.pcnt = 0 → sessionOps ops = true →
    isSessionOp last = true → ops.length = 254 →
    ∃ t u, runOps ops s = .next t ∧ exec last t = .next u ∧
      (∀ v ∈ statesAlong ops s, v.dact = s.dact) ∧ t.pcnt = 254 ∧ u.pcnt = 0 ∧ u.dact = t.out

/-- 44_pwm_output.md R175: the compare output. -/
def Obligations.CompareOutput : Prop :=
  ∀ s : State, s.pwmOut = true ↔ s.pcnt.toNat < s.dact.toNat

/-- 44_pwm_output.md R176: over one PWM period the output is high for exactly DACT of the 255 edges. -/
def Obligations.DutyFractionOfAPeriod : Prop :=
  ∀ (s : State) (ops : List Instr), s.ready → s.pcnt = 0 → sessionOps ops = true → ops.length = 254 →
    (s :: statesAlong ops s).length = 255 ∧
    (s :: statesAlong ops s).countP State.pwmOut = s.dact.toNat ∧
    (s.dact = 0 → ∀ v ∈ s :: statesAlong ops s, v.pwmOut = false) ∧
    (s.dact = 255 → ∀ v ∈ s :: statesAlong ops s, v.pwmOut = true)

/-- 44_pwm_output.md R177: OUT's value comes into force at the first period boundary after it, 1 to 255 edges later, and
stays in force for the 254 edges after that; after a RESET pwm_out is 0 for the first 255 edges. -/
def Obligations.DutyReachesTheWaveformAtTheNextBoundary : Prop :=
  (∀ (s : State) (ops : List Instr) (last : Instr) (more : List Instr), s.ready → sessionOps ops = true →
    isSessionOp last = true → sessionOps more = true → ops.length + 1 = 255 - s.pcnt.toNat → more.length ≤ 254 →
    ∃ t u v, runOps ops s = .next t ∧ exec last t = .next u ∧ runOps more u = .next v ∧
      (∀ w ∈ statesAlong ops s, w.dact = s.dact) ∧ u.dact = t.out ∧ u.pcnt = 0 ∧ v.dact = t.out) ∧
  (∀ (s : State) (p : Byte) (ops : List Instr), s.cfg.admitted = true → sessionOps ops = true → ops.length ≤ 254 →
    ∃ t, runOps (.reset p :: ops) s = .next t ∧
      ∀ v ∈ statesAlong (.reset p :: ops) s, v.pwmOut = false)

/-- 44_pwm_output.md R178: no engine register and neither duty port reads the pulse-width stage: two runs that start
with different PWM registers agree on them, over any operations, RESETs included. -/
def Obligations.PwmStageIsReadByNoEngineRegister : Prop :=
  ∀ (s : State) (x y : Byte) (ops : List Instr), s.ready → x.toNat ≤ 254 →
    ∃ t u, runOps ops s = .next t ∧ runOps ops { s with pcnt := x, dact := y } = .next u ∧
      t.engine = u.engine ∧ t.duty = u.duty ∧ t.dutyWr = u.dutyWr
end

