-- ==== Sys2Proof/Laws/Rom.lean ====
section
/-! SUPPORT. The canonical form of the ROM's memory: what the two memory operations keep and give (20_memory.md R50,
R51). -/

namespace Sys2Proof

/-- No cell stands below the canonical form's lower bound. -/
theorem romFind_below (m : Memory) (lo a : Nat) (h : Memory.wfFrom lo m = true) (ha : a < lo) :
    romFind a m = none := by
  induction m generalizing lo with
  | nil => rfl
  | cons cell rest ih =>
    obtain ⟨b, v⟩ := cell
    simp only [Memory.wfFrom, Bool.and_eq_true, decide_eq_true_eq] at h
    have hne : b ≠ a := by omega
    simpa [romFind, hne] using ih (b + 1) h.2 (by omega)

/-- The canonical form only asks for its lower bound from below. -/
theorem wfFrom_mono (m : Memory) (lo hi : Nat) (h : Memory.wfFrom hi m = true) (hle : lo ≤ hi) :
    Memory.wfFrom lo m = true := by
  cases m with
  | nil => rfl
  | cons cell rest =>
    simp only [Memory.wfFrom, Bool.and_eq_true, decide_eq_true_eq] at h ⊢
    exact ⟨⟨⟨by omega, h.1.1.2⟩, h.1.2⟩, h.2⟩

/-- Building a memory from bytes gives the canonical form. -/
theorem ofBytesAt_wf (a : Nat) (table : List Byte) (h : a + table.length ≤ 256) :
    Memory.wfFrom a (Memory.ofBytesAt a table) = true := by
  induction table generalizing a with
  | nil => rfl
  | cons v rest ih =>
    have hlen : a + 1 + rest.length ≤ 256 := by simpa [Nat.add_assoc, Nat.add_comm, Nat.add_left_comm] using h
    have hrest := ih (a + 1) hlen
    by_cases hv : v = unlistedByte
    · simpa [Memory.ofBytesAt, hv] using wfFrom_mono _ a (a + 1) hrest (by omega)
    · have ha : a < 256 := by omega
      simp [Memory.ofBytesAt, hv, Memory.wfFrom, ha, hrest]

/-- A table of at most 256 bytes becomes a canonical memory. -/
theorem ofBytes_wf (table : List Byte) (h : table.length ≤ 256) : Memory.wf (Memory.ofBytes table) = true :=
  ofBytesAt_wf 0 table (by omega)

/-- Two canonical memories that read alike below 256 are the same list: equal memories are equal data. -/
theorem wfFrom_ext (m n : Memory) (lo : Nat) (hm : Memory.wfFrom lo m = true) (hn : Memory.wfFrom lo n = true)
    (h : ∀ a, (romFind a m).getD unlistedByte = (romFind a n).getD unlistedByte) : m = n := by
  induction m generalizing n lo with
  | nil =>
    cases n with
    | nil => rfl
    | cons cell rest =>
      obtain ⟨b, v⟩ := cell
      simp only [Memory.wfFrom, Bool.and_eq_true, bne_iff_ne] at hn
      have := h b
      simp only [romFind, if_true, Option.getD_none, Option.getD_some] at this
      exact absurd this.symm hn.1.2
  | cons cell rest ih =>
    obtain ⟨b, v⟩ := cell
    cases n with
    | nil =>
      simp only [Memory.wfFrom, Bool.and_eq_true, bne_iff_ne] at hm
      have := h b
      simp only [romFind, if_true, Option.getD_none, Option.getD_some] at this
      exact absurd this hm.1.2
    | cons cell' rest' =>
      obtain ⟨b', v'⟩ := cell'
      simp only [Memory.wfFrom, Bool.and_eq_true, decide_eq_true_eq, bne_iff_ne] at hm hn
      rcases Nat.lt_trichotomy b b' with hlt | heq | hgt
      · have := h b
        rw [show romFind b ((b', v') :: rest') = none from by
          have hne : b' ≠ b := by omega
          simpa [romFind, hne] using romFind_below rest' (b' + 1) b hn.2 (by omega)] at this
        simp only [romFind, if_true, Option.getD_none, Option.getD_some] at this
        exact absurd this hm.1.2
      · subst heq
        have hv : v = v' := by simpa [romFind] using h b
        subst hv
        congr 1
        refine ih rest' (b + 1) hm.2 hn.2 fun a => ?_
        by_cases hab : b = a
        · subst hab
          rw [romFind_below rest (b + 1) b hm.2 (by omega), romFind_below rest' (b + 1) b hn.2 (by omega)]
        · simpa [romFind, hab] using h a
      · have := h b'
        rw [show romFind b' ((b, v) :: rest) = none from by
          have hne : b ≠ b' := by omega
          simpa [romFind, hne] using romFind_below rest (b + 1) b' hm.2 (by omega)] at this
        simp only [romFind, if_true, Option.getD_none, Option.getD_some] at this
        exact absurd this.symm hn.1.2

end Sys2Proof
end

