-- ==== Sys2Proof/Laws/Configuration.lean ====
section
/-! SUPPORT. What a legal configuration gives, in the terms proofs use (00_scope.md R7, R8), and the reference table. -/

namespace Sys2Proof

/-- The ranges an admitted configuration keeps, as propositions (00_scope.md R7, R8). -/
theorem admitted_iff (c : Config) :
    c.admitted = true ↔
      1 ≤ c.presetCount ∧ c.presetCount ≤ 256 ∧ 1 ≤ c.fracDen ∧ c.baseNum < c.fracDen ∧
      (∀ m ∈ c.presetNum, 1 ≤ m) ∧ 1 ≤ c.modBase ∧ 2 ≤ c.tcntW ∧ 2 * c.modBase ≤ 2 ^ c.tcntW - 1 := by
  simp only [Config.admitted, Bool.and_eq_true, decide_eq_true_eq, List.all_eq_true]
  tauto

/-- A legal configuration is an admitted one whose multipliers are at most 1 (00_scope.md R8). -/
theorem legal_iff (c : Config) :
    c.legal = true ↔ c.admitted = true ∧ ∀ m ∈ c.presetNum, m ≤ c.fracDen := by
  simp [Config.legal, List.all_eq_true]

/-- The interval fits the counter's width (00_scope.md R7 `MOD_BASE`). -/
theorem admitted_width (c : Config) (h : c.admitted = true) :
    1 ≤ c.modBase ∧ 2 * c.modBase < 2 ^ c.tcntW := by
  obtain ⟨-, -, -, -, -, hb, -, hw⟩ := (admitted_iff c).mp h
  have : 1 ≤ 2 ^ c.tcntW := Nat.one_le_two_pow
  omega

/-- The preset read is in range exactly below P (20_memory.md R52, R53). -/
theorem presetRead_isSome (c : Config) (i : Byte) :
    (∃ m, presetRead c i = some m) ↔ i.toNat < c.presetCount := by
  simp [presetRead, Config.presetCount, List.getElem?_eq_some_iff]

/-- The reference table has 256 entries, so its memory is canonical (42_waveform_lut.md R143). -/
theorem waveRef_wf : Memory.wf waveRef = true := ofBytes_wf waveRefBytes (by decide +kernel)

end Sys2Proof
end

