-- ==== Sys2Proof/Laws/State.lean ====
section
/-! SUPPORT. What each update of State leaves in each field: one lemma per field per update, so that no later proof
unfolds a record update. -/

namespace Sys2Proof.Machine

/-! ### IDLE (40_operations.md R102) -/

@[simp] theorem idleEffect_cfg (s : State) : (idleEffect s).cfg = s.cfg := rfl
@[simp] theorem idleEffect_life (s : State) : (idleEffect s).life = s.life := rfl
@[simp] theorem idleEffect_pins (s : State) : (idleEffect s).pins = s.pins := rfl
@[simp] theorem idleEffect_stimulus (s : State) : (idleEffect s).stimulus = s.stimulus := rfl
@[simp] theorem idleEffect_sys (s : State) : (idleEffect s).sys = s.sys := rfl
@[simp] theorem idleEffect_pstep (s : State) : (idleEffect s).pstep = s.pstep := rfl
@[simp] theorem idleEffect_ival (s : State) : (idleEffect s).ival = s.ival := rfl
@[simp] theorem idleEffect_tcnt (s : State) : (idleEffect s).tcnt = s.tcnt := rfl
@[simp] theorem idleEffect_out (s : State) : (idleEffect s).out = s.out := rfl
@[simp] theorem idleEffect_psel (s : State) : (idleEffect s).psel = s.psel := rfl
@[simp] theorem idleEffect_wstb (s : State) : (idleEffect s).wstb = false := rfl
@[simp] theorem idleEffect_pcnt (s : State) : (idleEffect s).pcnt = pwmCount s := rfl
@[simp] theorem idleEffect_dact (s : State) : (idleEffect s).dact = pwmShadow s := rfl

/-! ### a TICK without recomputation (40_operations.md R103) -/

@[simp] theorem countEffect_cfg (s : State) : (countEffect s).cfg = s.cfg := rfl
@[simp] theorem countEffect_life (s : State) : (countEffect s).life = s.life := rfl
@[simp] theorem countEffect_pins (s : State) : (countEffect s).pins = s.pins := rfl
@[simp] theorem countEffect_stimulus (s : State) : (countEffect s).stimulus = s.stimulus := rfl
@[simp] theorem countEffect_sys (s : State) : (countEffect s).sys = s.sys := rfl
@[simp] theorem countEffect_pstep (s : State) : (countEffect s).pstep = s.pstep := rfl
@[simp] theorem countEffect_ival (s : State) : (countEffect s).ival = s.ival := rfl
@[simp] theorem countEffect_tcnt (s : State) : (countEffect s).tcnt = nextTick s := rfl
@[simp] theorem countEffect_out (s : State) : (countEffect s).out = s.out := rfl
@[simp] theorem countEffect_psel (s : State) : (countEffect s).psel = s.psel := rfl
@[simp] theorem countEffect_wstb (s : State) : (countEffect s).wstb = true := rfl
@[simp] theorem countEffect_pcnt (s : State) : (countEffect s).pcnt = pwmCount s := rfl
@[simp] theorem countEffect_dact (s : State) : (countEffect s).dact = pwmShadow s := rfl

/-! ### a recomputation TICK (40_operations.md R103) -/

@[simp] theorem recomputeEffect_cfg (m : Nat) (s : State) : (recomputeEffect m s).cfg = s.cfg := rfl
@[simp] theorem recomputeEffect_life (m : Nat) (s : State) : (recomputeEffect m s).life = s.life := rfl
@[simp] theorem recomputeEffect_pins (m : Nat) (s : State) : (recomputeEffect m s).pins = s.pins := rfl
@[simp] theorem recomputeEffect_stimulus (m : Nat) (s : State) : (recomputeEffect m s).stimulus = s.stimulus := rfl
@[simp] theorem recomputeEffect_sys (m : Nat) (s : State) : (recomputeEffect m s).sys = nextPhase s := rfl
@[simp] theorem recomputeEffect_pstep (m : Nat) (s : State) : (recomputeEffect m s).pstep = nextPhaseStep s := rfl
@[simp] theorem recomputeEffect_ival (m : Nat) (s : State) : (recomputeEffect m s).ival = nextInterval s := rfl
@[simp] theorem recomputeEffect_tcnt (m : Nat) (s : State) : (recomputeEffect m s).tcnt = 0 := rfl
@[simp] theorem recomputeEffect_out (m : Nat) (s : State) : (recomputeEffect m s).out = scale s.cfg (lutSample s) (lookupPhase s) m := rfl
@[simp] theorem recomputeEffect_psel (m : Nat) (s : State) : (recomputeEffect m s).psel = s.psel := rfl
@[simp] theorem recomputeEffect_wstb (m : Nat) (s : State) : (recomputeEffect m s).wstb = true := rfl
@[simp] theorem recomputeEffect_pcnt (m : Nat) (s : State) : (recomputeEffect m s).pcnt = pwmCount s := rfl
@[simp] theorem recomputeEffect_dact (m : Nat) (s : State) : (recomputeEffect m s).dact = pwmShadow s := rfl

/-! ### RESET (40_operations.md R101) -/

@[simp] theorem resetEffect_cfg (p : Byte) (s : State) : (resetEffect p s).cfg = s.cfg := rfl
@[simp] theorem resetEffect_life (p : Byte) (s : State) : (resetEffect p s).life = .running := rfl
@[simp] theorem resetEffect_pins (p : Byte) (s : State) : (resetEffect p s).pins = s.pins := rfl
@[simp] theorem resetEffect_stimulus (p : Byte) (s : State) : (resetEffect p s).stimulus = s.stimulus := rfl
@[simp] theorem resetEffect_sys (p : Byte) (s : State) : (resetEffect p s).sys = .diastole := rfl
@[simp] theorem resetEffect_pstep (p : Byte) (s : State) : (resetEffect p s).pstep = 0 := rfl
@[simp] theorem resetEffect_ival (p : Byte) (s : State) : (resetEffect p s).ival = s.cfg.modBase := rfl
@[simp] theorem resetEffect_tcnt (p : Byte) (s : State) : (resetEffect p s).tcnt = 0 := rfl
@[simp] theorem resetEffect_out (p : Byte) (s : State) : (resetEffect p s).out = 0 := rfl
@[simp] theorem resetEffect_psel (p : Byte) (s : State) : (resetEffect p s).psel = resolvePreset s.cfg p := rfl
@[simp] theorem resetEffect_wstb (p : Byte) (s : State) : (resetEffect p s).wstb = false := rfl
@[simp] theorem resetEffect_pcnt (p : Byte) (s : State) : (resetEffect p s).pcnt = 0 := rfl
@[simp] theorem resetEffect_dact (p : Byte) (s : State) : (resetEffect p s).dact = 0 := rfl

/-! ### power-on (70_reset_and_hazards.md R230) -/

@[simp] theorem powerOn_cfg (c : Config) (s : State) : (State.powerOn c s).cfg = c := rfl
@[simp] theorem powerOn_life (c : Config) (s : State) : (State.powerOn c s).life = .unreset := rfl
@[simp] theorem powerOn_pins (c : Config) (s : State) : (State.powerOn c s).pins = s.pins := rfl
@[simp] theorem powerOn_stimulus (c : Config) (s : State) : (State.powerOn c s).stimulus = s.stimulus := rfl
@[simp] theorem powerOn_sys (c : Config) (s : State) : (State.powerOn c s).sys = s.sys := rfl
@[simp] theorem powerOn_pstep (c : Config) (s : State) : (State.powerOn c s).pstep = s.pstep := rfl
@[simp] theorem powerOn_ival (c : Config) (s : State) : (State.powerOn c s).ival = s.ival := rfl
@[simp] theorem powerOn_tcnt (c : Config) (s : State) : (State.powerOn c s).tcnt = s.tcnt := rfl
@[simp] theorem powerOn_out (c : Config) (s : State) : (State.powerOn c s).out = s.out := rfl
@[simp] theorem powerOn_psel (c : Config) (s : State) : (State.powerOn c s).psel = s.psel := rfl
@[simp] theorem powerOn_wstb (c : Config) (s : State) : (State.powerOn c s).wstb = s.wstb := rfl
@[simp] theorem powerOn_pcnt (c : Config) (s : State) : (State.powerOn c s).pcnt = s.pcnt := rfl
@[simp] theorem powerOn_dact (c : Config) (s : State) : (State.powerOn c s).dact = s.dact := rfl

/-! ### the host driving the pins -/

@[simp] theorem drive_cfg (s : State) (cw : ControlWord) : (s.drive cw).cfg = s.cfg := rfl
@[simp] theorem drive_life (s : State) (cw : ControlWord) : (s.drive cw).life = s.life := rfl
@[simp] theorem drive_pins (s : State) (cw : ControlWord) : (s.drive cw).pins = cw := rfl
@[simp] theorem drive_stimulus (s : State) (cw : ControlWord) : (s.drive cw).stimulus = s.stimulus := rfl
@[simp] theorem drive_sys (s : State) (cw : ControlWord) : (s.drive cw).sys = s.sys := rfl
@[simp] theorem drive_pstep (s : State) (cw : ControlWord) : (s.drive cw).pstep = s.pstep := rfl
@[simp] theorem drive_ival (s : State) (cw : ControlWord) : (s.drive cw).ival = s.ival := rfl
@[simp] theorem drive_tcnt (s : State) (cw : ControlWord) : (s.drive cw).tcnt = s.tcnt := rfl
@[simp] theorem drive_out (s : State) (cw : ControlWord) : (s.drive cw).out = s.out := rfl
@[simp] theorem drive_psel (s : State) (cw : ControlWord) : (s.drive cw).psel = s.psel := rfl
@[simp] theorem drive_wstb (s : State) (cw : ControlWord) : (s.drive cw).wstb = s.wstb := rfl
@[simp] theorem drive_pcnt (s : State) (cw : ControlWord) : (s.drive cw).pcnt = s.pcnt := rfl
@[simp] theorem drive_dact (s : State) (cw : ControlWord) : (s.drive cw).dact = s.dact := rfl

/-! ### placing the next control word -/

@[simp] theorem withFetchWord_cfg (s : State) (nbits w : Nat) : (s.withFetchWord nbits w).cfg = s.cfg := rfl
@[simp] theorem withFetchWord_life (s : State) (nbits w : Nat) : (s.withFetchWord nbits w).life = s.life := rfl
@[simp] theorem withFetchWord_pins (s : State) (nbits w : Nat) : (s.withFetchWord nbits w).pins = BitVec.ofNat 10 (w % 2 ^ nbits) := rfl
@[simp] theorem withFetchWord_stimulus (s : State) (nbits w : Nat) : (s.withFetchWord nbits w).stimulus = s.stimulus := rfl
@[simp] theorem withFetchWord_sys (s : State) (nbits w : Nat) : (s.withFetchWord nbits w).sys = s.sys := rfl
@[simp] theorem withFetchWord_pstep (s : State) (nbits w : Nat) : (s.withFetchWord nbits w).pstep = s.pstep := rfl
@[simp] theorem withFetchWord_ival (s : State) (nbits w : Nat) : (s.withFetchWord nbits w).ival = s.ival := rfl
@[simp] theorem withFetchWord_tcnt (s : State) (nbits w : Nat) : (s.withFetchWord nbits w).tcnt = s.tcnt := rfl
@[simp] theorem withFetchWord_out (s : State) (nbits w : Nat) : (s.withFetchWord nbits w).out = s.out := rfl
@[simp] theorem withFetchWord_psel (s : State) (nbits w : Nat) : (s.withFetchWord nbits w).psel = s.psel := rfl
@[simp] theorem withFetchWord_wstb (s : State) (nbits w : Nat) : (s.withFetchWord nbits w).wstb = s.wstb := rfl
@[simp] theorem withFetchWord_pcnt (s : State) (nbits w : Nat) : (s.withFetchWord nbits w).pcnt = s.pcnt := rfl
@[simp] theorem withFetchWord_dact (s : State) (nbits w : Nat) : (s.withFetchWord nbits w).dact = s.dact := rfl

/-! ### the host moving to its next word -/

@[simp] theorem advancePins_cfg (s : State) : s.advancePins.cfg = s.cfg := by
  unfold State.advancePins; split <;> rfl
@[simp] theorem advancePins_life (s : State) : s.advancePins.life = s.life := by
  unfold State.advancePins; split <;> rfl
@[simp] theorem advancePins_pins (s : State) : s.advancePins.pins = s.stimulus.headD s.pins := by
  unfold State.advancePins; split <;> simp_all
@[simp] theorem advancePins_stimulus (s : State) : s.advancePins.stimulus = s.stimulus.tail := by
  unfold State.advancePins; split <;> simp_all
@[simp] theorem advancePins_sys (s : State) : s.advancePins.sys = s.sys := by
  unfold State.advancePins; split <;> rfl
@[simp] theorem advancePins_pstep (s : State) : s.advancePins.pstep = s.pstep := by
  unfold State.advancePins; split <;> rfl
@[simp] theorem advancePins_ival (s : State) : s.advancePins.ival = s.ival := by
  unfold State.advancePins; split <;> rfl
@[simp] theorem advancePins_tcnt (s : State) : s.advancePins.tcnt = s.tcnt := by
  unfold State.advancePins; split <;> rfl
@[simp] theorem advancePins_out (s : State) : s.advancePins.out = s.out := by
  unfold State.advancePins; split <;> rfl
@[simp] theorem advancePins_psel (s : State) : s.advancePins.psel = s.psel := by
  unfold State.advancePins; split <;> rfl
@[simp] theorem advancePins_wstb (s : State) : s.advancePins.wstb = s.wstb := by
  unfold State.advancePins; split <;> rfl
@[simp] theorem advancePins_pcnt (s : State) : s.advancePins.pcnt = s.pcnt := by
  unfold State.advancePins; split <;> rfl
@[simp] theorem advancePins_dact (s : State) : s.advancePins.dact = s.dact := by
  unfold State.advancePins; split <;> rfl

/-- Moving to the next word touches the input fields and nothing else (30_encoding.md R70). -/
theorem advancePins_eq (s : State) :
    s.advancePins = { s with pins := s.stimulus.headD s.pins, stimulus := s.stimulus.tail } := by
  obtain ⟨cfg, life, pins, stimulus, sys, pstep, ival, tcnt, out, psel, wstb, pcnt, dact⟩ := s
  cases stimulus <;> rfl

/-! ### the engine registers -/

@[simp] theorem engine_sys (s : State) : s.engine.sys = s.sys := rfl
@[simp] theorem engine_pstep (s : State) : s.engine.pstep = s.pstep := rfl
@[simp] theorem engine_ival (s : State) : s.engine.ival = s.ival := rfl
@[simp] theorem engine_tcnt (s : State) : s.engine.tcnt = s.tcnt := rfl
@[simp] theorem engine_out (s : State) : s.engine.out = s.out := rfl
@[simp] theorem engine_psel (s : State) : s.engine.psel = s.psel := rfl

@[simp] theorem idleEffect_engine (s : State) : (idleEffect s).engine = s.engine := rfl
@[simp] theorem countEffect_engine (s : State) :
    (countEffect s).engine = { s.engine with tcnt := nextTick s } := rfl
@[simp] theorem drive_engine (s : State) (cw : ControlWord) : (s.drive cw).engine = s.engine := rfl

end Sys2Proof.Machine
end

