-- ==== Sys2Proof/Laws/Ops.lean ====
section
/-! SUPPORT. What the shared operations and the three meanings can do, said once; later proofs cite these and do not
unfold `exec` (40_operations.md R100 to R103). -/

namespace Sys2Proof.Machine

/-- The invariants of 10_state.md R33 as propositions. -/
theorem inv_iff (s : State) :
    s.inv = true ↔
      s.ival = interval s.cfg s.sys ∧ s.tcnt < s.ival ∧ s.psel.toNat < s.cfg.presetCount ∧ s.pcnt.toNat ≤ 254 := by
  simp only [State.inv, State.inv1, State.inv2, State.inv3, State.inv4, Bool.and_eq_true, decide_eq_true_eq,
    beq_iff_eq]
  tauto

/-- `operate` goes on exactly from a ready state, with the effect's state (40_operations.md R100). -/
theorem operate_eq_next (e : State → Option State) (s t : State) :
    operate e s = .next t ↔ s.ready ∧ e s = some t := by
  unfold operate State.ready State.admitsAll
  cases s.cfg.admitted <;> cases hl : s.life <;> cases s.inv <;> cases he : e s <;> simp

/-- A ready state's `operate` is its effect. -/
theorem operate_ready (e : State → Option State) (s t : State) (hs : s.ready) (he : e s = some t) :
    operate e s = .next t := (operate_eq_next e s t).mpr ⟨hs, he⟩

/-- From a state that does not admit IDLE and TICK, `operate` refuses (40_operations.md R100). -/
theorem operate_notAdmitted (e : State → Option State) (s : State) (hc : s.cfg.admitted = true)
    (hs : s.admitsAll = false) : operate e s = .refused .illegalState := by
  simp [operate, hc, hs]

/-- In an illegal configuration `operate` refuses (00_scope.md R8). -/
theorem operate_illegalConfig (e : State → Option State) (s : State) (hc : s.cfg.admitted = false) :
    operate e s = .refused .illegalConfig := by
  simp [operate, hc]

/-- RESET's frame goes on exactly in an admitted configuration (40_operations.md R101). -/
theorem operateAnyState_eq_next (e : State → State) (s t : State) :
    operateAnyState e s = .next t ↔ s.cfg.admitted = true ∧ e s = t := by
  unfold operateAnyState
  cases s.cfg.admitted <;> simp

/-- IDLE goes on exactly from a ready state. -/
theorem exec_idle_next (s t : State) : exec .idle s = .next t ↔ s.ready ∧ t = idleEffect s := by
  simp only [exec, execIdle, operate_eq_next, Option.some.injEq]
  tauto

/-- TICK goes on exactly from a ready state, with its register transfers. -/
theorem exec_tick_next (s t : State) : exec .tick s = .next t ↔ s.ready ∧ tickEffect s = some t := by
  simp only [exec, execTick, operate_eq_next]

/-- RESET goes on exactly in an admitted configuration. -/
theorem exec_reset_next (p : Byte) (s t : State) :
    exec (.reset p) s = .next t ↔ s.cfg.admitted = true ∧ t = resetEffect p s := by
  simp only [exec, execReset, operateAnyState_eq_next]
  exact and_congr_right fun _ => eq_comm

/-- A ready state's preset read is in range (20_memory.md R53). -/
theorem ready_preset (s : State) (hs : s.ready) : ∃ m, presetNumerator s = some m :=
  (presetRead_isSome s.cfg s.psel).mpr ((inv_iff s).mp hs.2.2).2.2.1

/-- The two cases of TICK's register transfers (40_operations.md R103). -/
theorem tickEffect_cases (s t : State) (h : tickEffect s = some t) :
    (recompute s = false ∧ t = countEffect s) ∨
      (recompute s = true ∧ ∃ m, presetNumerator s = some m ∧ t = recomputeEffect m s) := by
  unfold tickEffect at h
  cases hr : recompute s with
  | false => simp_all
  | true =>
    rw [hr] at h
    simp only [if_true, Option.map_eq_some_iff] at h
    obtain ⟨m, hm, rfl⟩ := h
    exact .inr ⟨rfl, m, hm, rfl⟩

/-- Everything an operation that goes on can have done. -/
theorem exec_next_cases (i : Instr) (s t : State) (h : exec i s = .next t) :
    (i = .idle ∧ s.ready ∧ t = idleEffect s) ∨
    (i = .tick ∧ s.ready ∧ recompute s = false ∧ t = countEffect s) ∨
    (i = .tick ∧ s.ready ∧ recompute s = true ∧ ∃ m, presetNumerator s = some m ∧ t = recomputeEffect m s) ∨
    (∃ p, i = .reset p ∧ s.cfg.admitted = true ∧ t = resetEffect p s) := by
  cases i with
  | idle =>
    obtain ⟨hs, ht⟩ := (exec_idle_next s t).mp h
    exact .inl ⟨rfl, hs, ht⟩
  | tick =>
    obtain ⟨hs, ht⟩ := (exec_tick_next s t).mp h
    rcases tickEffect_cases s t ht with ⟨hr, ht⟩ | ⟨hr, ht⟩
    · exact .inr (.inl ⟨rfl, hs, hr, ht⟩)
    · exact .inr (.inr (.inl ⟨rfl, hs, hr, ht⟩))
  | reset p =>
    obtain ⟨hs, ht⟩ := (exec_reset_next p s t).mp h
    exact .inr (.inr (.inr ⟨p, rfl, hs, ht⟩))

/-- An operation that does not go on is refused, never faulted (60_exceptions.md R212). -/
theorem exec_not_fault (i : Instr) (s : State) (f : Fault) : exec i s ≠ .fault f := nomatch f

/-- In a ready state the counter's wrap is never taken (41_phase_counter.md R120). -/
theorem ready_nextTick (s : State) (hs : s.ready) : nextTick s = s.tcnt + 1 ∧ s.tcnt < s.ival := by
  obtain ⟨hi, ht, -, -⟩ := (inv_iff s).mp hs.2.2
  obtain ⟨hb, hw⟩ := admitted_width s.cfg hs.1
  have hle : s.ival ≤ 2 * s.cfg.modBase := by
    rw [hi]; cases s.sys <;> simp only [interval] <;> omega
  exact ⟨Nat.mod_eq_of_lt (by omega), ht⟩

/-- A ready state recomputes exactly when one TICK is left of the interval (41_phase_counter.md R121). -/
theorem ready_recompute (s : State) (hs : s.ready) : recompute s = true ↔ s.tcnt + 1 = s.ival := by
  simp [recompute, (ready_nextTick s hs).1]

/-- PCNT stays a position in the period (44_pwm_output.md R173). -/
theorem pwmCount_le (s : State) (h : s.pcnt.toNat ≤ 254) : (pwmCount s).toNat ≤ 254 := by
  unfold pwmCount
  split
  · decide
  · rename_i hne
    have : s.pcnt.toNat ≠ 254 := fun he => hne (BitVec.eq_of_toNat_eq (by simpa using he))
    rw [BitVec.toNat_add, show (1 : Byte).toNat = 1 from rfl]
    omega

/-- PCNT counts 0, 1, …, 254, 0, … (44_pwm_output.md R173). -/
theorem pwmCount_toNat (s : State) (h : s.pcnt.toNat ≤ 254) : (pwmCount s).toNat = (s.pcnt.toNat + 1) % 255 := by
  unfold pwmCount
  split
  · rename_i he
    simp [he]
  · rename_i hne
    have : s.pcnt.toNat ≠ 254 := fun he => hne (BitVec.eq_of_toNat_eq (by simpa using he))
    rw [BitVec.toNat_add, show (1 : Byte).toNat = 1 from rfl]
    omega

/-- The resolved preset index is below P (40_operations.md R101). -/
theorem resolvePreset_lt (c : Config) (h : c.admitted = true) (p : Byte) :
    (resolvePreset c p).toNat < c.presetCount := by
  unfold resolvePreset
  split
  · assumption
  · have := ((admitted_iff c).mp h).1
    simpa using (show 0 < c.presetCount by omega)

/-- One step of a run. -/
theorem runOps_cons_next (i : Instr) (rest : List Instr) (s t : State) (h : exec i s = .next t) :
    runOps (i :: rest) s = runOps rest t := by
  simp [runOps, h]

/-- A run of two sequences, one after the other. -/
theorem runOps_append (a b : List Instr) (s t : State) (h : runOps a s = .next t) :
    runOps (a ++ b) s = runOps b t := by
  induction a generalizing s with
  | nil => simp only [runOps, Host.Outcome.next.injEq] at h; simp [h]
  | cons i rest ih =>
    cases he : exec i s with
    | next u => simp only [runOps, he, List.cons_append] at h ⊢; exact ih u h
    | fault f => exact nomatch f
    | refused r => simp [runOps, he] at h

/-- The states along a step that goes on. -/
theorem statesAlong_cons_next (i : Instr) (rest : List Instr) (s t : State) (h : exec i s = .next t) :
    statesAlong (i :: rest) s = t :: statesAlong rest t := by
  simp [statesAlong, h]

end Sys2Proof.Machine
end

