-- ==== Sys2Proof/Laws/PerInstr.lean ====
section
/-! SUPPORT. The statement made per operation: its encoding lies in its own row of the opcode map, and every bit the
operation does not read is 0 in it (30_encoding.md R73, R77). -/

namespace Sys2Proof.Laws.EncodesItsRow

/-- The operation's word selects the operation's row, and its ignored bits are 0. -/
def Statement (i : Instr) : Prop :=
  (opcodeRow i).selects (encode i) = true ∧ encode i &&& ~~~readMask i = 0

theorem idle : Statement .idle := by unfold Statement; decide

theorem tick : Statement .tick := by unfold Statement; decide

theorem reset (psel : Byte) : Statement (.reset psel) := by
  revert psel
  unfold Statement
  decide +kernel

end Sys2Proof.Laws.EncodesItsRow
end

