-- ==== Sys2Proof/Laws/Runs.lean ====
section
/-! SUPPORT. Taking runs of operations and their TICK counts apart. -/

namespace Sys2Proof.Machine

/-- The head of a sequence without RESET is an IDLE or a TICK. -/
theorem sessionOps_cons (i : Instr) (rest : List Instr) :
    sessionOps (i :: rest) = true ↔ (i = .idle ∨ i = .tick) ∧ sessionOps rest = true := by
  cases i <;> simp [sessionOps, isSessionOp]

/-- A sequence without RESET in two parts. -/
theorem sessionOps_append (a b : List Instr) :
    sessionOps (a ++ b) = true ↔ sessionOps a = true ∧ sessionOps b = true := by
  simp [sessionOps]

/-- k TICKs hold no RESET. -/
theorem sessionOps_replicate_tick (n : Nat) : sessionOps (List.replicate n .tick) = true := by
  simp [sessionOps, isSessionOp]

@[simp] theorem tickCount_nil : tickCount [] = 0 := rfl

@[simp] theorem tickCount_idle (rest : List Instr) : tickCount (.idle :: rest) = tickCount rest := by
  simp [tickCount]

@[simp] theorem tickCount_tick (rest : List Instr) : tickCount (.tick :: rest) = tickCount rest + 1 := by
  simp [tickCount]

@[simp] theorem tickCount_append (a b : List Instr) : tickCount (a ++ b) = tickCount a + tickCount b := by
  simp [tickCount]

@[simp] theorem tickCount_replicate_tick (n : Nat) : tickCount (List.replicate n .tick) = n := by
  simp [tickCount]

/-- One edge of a host run that goes on. -/
theorem core_run_next (n : Nat) (s t : State) (h : step s = .next t) :
    Host.Core.run Sys2Proof.core (n + 1) s = Host.Core.run Sys2Proof.core n t := by
  have h' : Sys2Proof.core.step s = .next t := h
  simp [Host.Core.run, h']

/-- One edge of a host run that is refused. -/
theorem core_run_refused (n : Nat) (s : State) (r : Refusal) (h : step s = .refused r) :
    Host.Core.run Sys2Proof.core (n + 1) s = .refused r := by
  have h' : Sys2Proof.core.step s = .refused r := h
  simp [Host.Core.run, h']

end Sys2Proof.Machine
end

