-- ==== Sys2Proof/Laws/Scaler.lean ====
section
/-! SUPPORT. Bounds of the scaler's parts under a configuration an instance can be built with
(43_brightness_scaler.md R151, R152, R156). -/

namespace Sys2Proof.Machine

/-- A damped sample is at most 255 (43_brightness_scaler.md R151). -/
theorem dampedSample_le (sample : Byte) (ph : Phase) : dampedSample sample ph ≤ 255 := by
  have := sample.isLt
  cases ph <;> simp only [dampedSample] <;> omega

/-- A damped sample in fifths is at most 5 · 255. -/
theorem dampedFifths_le (sample : Byte) (ph : Phase) : dampedFifths sample ph ≤ 1275 := by
  have := sample.isLt
  cases ph <;> simp only [dampedFifths] <;> omega

/-- `K + BASE_NUM = D`, and K is positive. -/
theorem blendGain_add (c : Config) (h : c.admitted = true) :
    blendGain c + c.baseNum = c.fracDen ∧ 0 < blendGain c := by
  have := ((admitted_iff c).mp h).2.2.2.1
  unfold blendGain
  omega

/-- The blended sample over D lies below 255 · D: the blend is a convex combination (43_brightness_scaler.md R152). -/
theorem blended_le (c : Config) (h : c.admitted = true) (x : Nat) (hx : x ≤ 255) :
    blendFloor c + x * blendGain c ≤ 255 * c.fracDen := by
  obtain ⟨hk, -⟩ := blendGain_add c h
  have := Nat.mul_le_mul_right (blendGain c) hx
  unfold blendFloor
  rw [← hk, Nat.mul_add]
  omega

/-- A value up to 255 is its own conversion (43_brightness_scaler.md R155). -/
theorem conv8_of_le (mode : OvfMode) (d : Nat) (h : d ≤ 255) : conv8 mode d = BitVec.ofNat 8 d := if_pos h

/-- The datapath does not read OVF_MODE. -/
theorem dutyDatapath_ovfMode (c : Config) (mode : OvfMode) (sample : Byte) (ph : Phase) (m : Nat) :
    dutyDatapath { c with ovfMode := mode } sample ph m = dutyDatapath c sample ph m := rfl

end Sys2Proof.Machine
end

