-- ==== Sys2Proof/Tests/Slice0.lean ====
section
/-! SUPPORT. The model's own tests, with the results of 95_test_vectors.md, and for every obligation with hypotheses a
concrete witness that meets them. -/

open Sys2Proof Sys2Proof.Machine

namespace Sys2Proof.Tests

/-! ## The notation's checks, each with a term it refuses (30_encoding.md R77, R78) -/

theorem test_reset_index_above_255_refused : (Stmt.reset 256).wellFormed = false := by decide
theorem test_poweron_index_above_255_refused : (Stmt.poweron 256).wellFormed = false := by decide
theorem test_ticks_zero_refused : (Stmt.ticks 0).wellFormed = false := by decide
theorem test_idles_zero_refused : (Stmt.idles 0).wellFormed = false := by decide
theorem test_tickwait_zero_refused : (Stmt.tickwait 0).wellFormed = false := by decide
theorem test_recomputes_zero_refused : (Stmt.recomputes 0).wellFormed = false := by decide
theorem test_program_with_ill_formed_statement_refused :
    programWellFormed [.tick, .reset 300] = false ∧ assemble 2 [.tick, .reset 300] = .error .outOfRange := by decide
theorem test_bounds_accepted : programWellFormed [.reset 255, .ticks 1, .poweron 0, .recomputes 1] = true := by decide

/-! ## Decoding words written out bit by bit, `{preset_sel, rst, tick}` (95_test_vectors.md L2, encoding) -/

theorem test_decode_idle : decodeWord 0b0000000000 = .ok .idle ∧ decodeWord 0b1111111100 = .ok .idle := by decide
theorem test_decode_tick : decodeWord 0b0000000001 = .ok .tick ∧ decodeWord 0b0011110101 = .ok .tick := by decide
theorem test_decode_reset :
    decodeWord 0b0000001010 = .ok (.reset 2) ∧ decodeWord 0b0000001111 = .ok (.reset 3) ∧
    decodeWord 0b0000011110 = .ok (.reset 7) ∧ decodeWord 0b1111111110 = .ok (.reset 255) := by decide
theorem test_decode_wider_word_refused :
    decodeWord 0b10000000000 = .error .widerThanTenBits ∧ decodeTableWord 16 0x8001 = none := by decide

/-! ## One edge (95_test_vectors.md L2) -/

/-- A running state of the reference configuration, its registers in the order the vectors list them. -/
def regs (sys : Phase) (pstep : Byte) (ival tcnt : Nat) (out psel : Byte) (wstb : Bool) (pcnt dact : Byte) : State :=
  { State.reset with
    sys := sys, pstep := pstep, ival := ival, tcnt := tcnt, out := out, psel := psel, wstb := wstb, pcnt := pcnt,
    dact := dact }

/-- The registers of a next state, in the same order, and `pwm_out`. -/
structure Shown where
  sys : Phase
  pstep : Byte
  ival : Nat
  tcnt : Nat
  out : Byte
  psel : Byte
  wstb : Bool
  pcnt : Byte
  dact : Byte
  pwmOut : Bool
  deriving DecidableEq, Repr

def shown : Host.Outcome State Fault Refusal → Option Shown
  | .next s => some ⟨s.sys, s.pstep, s.ival, s.tcnt, s.out, s.psel, s.wstb, s.pcnt, s.dact, s.pwmOut⟩
  | .fault _ => none
  | .refused _ => none

/-- The refusal of an outcome. -/
def refusal : Host.Outcome State Fault Refusal → Option Refusal
  | .next _ => none
  | .fault _ => none
  | .refused r => some r

/-- `WAVE'`: WAVE_REF with entry 255 equal to 255 (95_test_vectors.md, vectors T12 to T13A). -/
def wavePrime : Memory := Memory.ofBytes (waveRefBytes.set 255 255)

/-- Vectors RS9 and RS4. -/
theorem test_reset_mid_systole :
    shown (step ((regs .systole 200 4 3 144 3 true 77 102).withFetchWord 16 0x006)) =
      some ⟨.diastole, 0, 2, 0, 0, 1, false, 0, 0, false⟩ ∧
    shown (exec (.reset 255) (regs .systole 200 4 3 144 3 true 77 102)) =
      some ⟨.diastole, 0, 2, 0, 0, 0, false, 0, 0, false⟩ := by decide +kernel

/-- Vectors X7 and RS6. -/
theorem test_reset_from_refused_state_and_full_preset_range :
    shown (exec (.reset 1) (regs .diastole 0 2 2 0 3 false 0 0)) =
      some ⟨.diastole, 0, 2, 0, 0, 1, false, 0, 0, false⟩ ∧
    shown (exec (.reset 255)
      { State.reset with cfg := { Config.reference with presetNum := List.replicate 256 100 }, life := .unreset }) =
      some ⟨.diastole, 0, 2, 0, 0, 255, false, 0, 0, false⟩ := by decide +kernel

/-- Vectors ID2 and ID3. -/
theorem test_idle_boundary_and_compare :
    shown (exec .idle (regs .diastole 0 2 1 193 3 false 254 102)) =
      some ⟨.diastole, 0, 2, 1, 193, 3, false, 0, 193, true⟩ ∧
    shown (exec .idle (regs .diastole 0 2 0 0 3 false 101 102)) =
      some ⟨.diastole, 0, 2, 0, 0, 3, false, 102, 102, false⟩ := by decide +kernel

/-- Vectors X2, X4 and X6. -/
theorem test_idle_refused :
    refusal (exec .idle (State.powerOn Config.reference State.reset)) = some .illegalState ∧
    refusal (exec .idle (regs .diastole 0 2 0 0 4 false 0 0)) = some .illegalState ∧
    refusal (exec .idle (regs .diastole 0 2 0 0 3 false 255 0)) = some .illegalState := by decide +kernel

/-- Vectors T1, T10 (recomputation and PWM boundary at one edge), T5 and T13 (the two wraps). -/
theorem test_tick_lookup_first :
    shown (exec .tick (regs .diastole 0 2 0 0 3 false 0 0)) =
      some ⟨.diastole, 0, 2, 1, 0, 3, true, 1, 0, false⟩ ∧
    shown (exec .tick (regs .diastole 0 2 1 77 3 false 254 5)) =
      some ⟨.diastole, 1, 2, 0, 102, 3, true, 0, 77, true⟩ ∧
    shown (exec .tick (regs .diastole 255 2 1 0 3 false 0 0)) =
      some ⟨.systole, 0, 4, 0, 102, 3, true, 1, 0, false⟩ ∧
    shown (exec .tick
      { regs .systole 255 4 3 0 3 false 0 0 with cfg := { Config.reference with wave := wavePrime } }) =
      some ⟨.diastole, 0, 2, 0, 193, 3, true, 1, 0, false⟩ := by decide +kernel

/-- Vectors T4A and T12A (ADVANCE_FIRST), X3 and X5, and X8's base numerator D. -/
theorem test_tick_advance_first_and_refusals :
    shown (exec .tick
      { regs .diastole 127 2 1 0 3 false 0 0 with cfg := { Config.reference with order := .advanceFirst } }) =
      some ⟨.diastole, 128, 2, 0, 255, 3, true, 1, 0, false⟩ ∧
    shown (exec .tick
      { regs .diastole 255 2 1 0 3 false 0 0 with
        cfg := { Config.reference with wave := wavePrime, order := .advanceFirst } }) =
      some ⟨.systole, 0, 4, 0, 102, 3, true, 1, 0, false⟩ ∧
    refusal (exec .tick (regs .diastole 0 2 2 0 3 false 0 0)) = some .illegalState ∧
    refusal (exec .tick (regs .diastole 0 4 0 0 3 false 0 0)) = some .illegalState ∧
    refusal (exec .tick { State.reset with cfg := { Config.reference with baseNum := 100 } }) =
      some .illegalConfig := by decide +kernel

/-! ## The tables and the scaler (95_test_vectors.md L2) -/

theorem test_lut_reads :
    [0x00, 0x05, 0x06, 0x3F, 0x40, 0x41, 0x7F, 0x80, 0x81, 0xBF, 0xC0, 0xFA, 0xFB, 0xFF].map
        (fun a => (memRead waveRef a).toNat) =
      [0, 0, 1, 124, 127, 130, 254, 255, 254, 130, 127, 1, 0, 0] := by decide +kernel

/-- The reference configuration with other truncation flags. -/
def flags (damp blend : Bool) : Config := { Config.reference with dampTrunc := damp, blendTrunc := blend }

/-- The row of the scaler table for numerator m and sample s: dia, sys, sys DT=0, dia BT=1, sys BT=1, sys DT=0 BT=1. -/
def scalerRow (m : Nat) (s : Byte) : List Nat :=
  [scale (flags true false) s .diastole m, scale (flags true false) s .systole m,
    scale (flags false false) s .systole m, scale (flags true true) s .diastole m,
    scale (flags true true) s .systole m, scale (flags false true) s .systole m].map BitVec.toNat

theorem test_scaler_rows :
    scalerRow 25 6 = [26, 25, 26, 26, 25, 26] ∧ scalerRow 75 6 = [79, 77, 78, 78, 77, 78] ∧
    scalerRow 75 254 = [190, 144, 145, 190, 144, 144] ∧ scalerRow 75 255 = [191, 145, 145, 191, 144, 144] ∧
    scalerRow 100 0 = [102, 102, 102, 102, 102, 102] ∧ scalerRow 100 127 = [178, 147, 147, 178, 147, 147] ∧
    scalerRow 100 255 = [255, 193, 193, 255, 193, 193] := by decide +kernel

theorem test_scaler_overflow :
    (scale Config.reference 128 .diastole 150).toNat = 12 ∧ (scale Config.reference 128 .systole 150).toNat = 221 ∧
    (scale Config.reference 255 .diastole 200).toNat = 254 ∧
    (scale { Config.reference with ovfMode := .clamp } 255 .diastole 200).toNat = 255 ∧
    (scale { Config.reference with ovfMode := .clamp } 128 .systole 150).toNat = 221 := by decide +kernel

theorem test_scaler_other_denominator :
    let c : Config := { Config.reference with fracDen := 1000, baseNum := 375 }
    [scale c 0 .diastole 333, scale c 128 .diastole 1000, scale c 128 .systole 333, scale c 255 .systole 1000].map
        BitVec.toNat = [31, 175, 47, 191] := by decide +kernel

/-! ## Program text (30_encoding.md R77; programs P1 and P7 of 95_test_vectors.md) -/

theorem test_text_p1 :
    assembleText 2 "POWERON 3        ; 0x00E   preset 3, M = 100\nTICKS 6          ; 0x001 x 6".toList =
      .ok [0x00E, 0x001, 0x001, 0x001, 0x001, 0x001, 0x001] := by decide +kernel

theorem test_text_forms_and_refusals :
    assembleText 2 "; a comment line\n\nRESET 0x1\nTICKWAIT 3\nRECOMPUTES 1\nIDLE".toList =
      .ok [0x006, 0x001, 0x000, 0x000, 0x001, 0x001, 0x000] ∧
    assembleText 2 "RESET 256".toList = .error .outOfRange ∧
    assembleText 2 "RESET 0x".toList = .error .badNumber ∧
    assembleText 2 "JUMP 1".toList = .error .unknownStatement := by decide +kernel

/-! ## Witnesses: for each obligation, states and operands that meet all its hypotheses together -/

/-- Running, preset 3, one TICK before a recomputation that wraps, at the end of a PWM period: every bound at once. -/
def edge : State := regs .diastole 255 2 1 77 3 false 254 5

/-- Running, at the start of Systole, mid-period. -/
def beat : State := regs .systole 0 4 0 102 3 true 10 102

theorem edge_ready : edge.ready := ⟨by decide +kernel, rfl, by decide +kernel⟩
theorem beat_ready : beat.ready := ⟨by decide +kernel, rfl, by decide +kernel⟩
theorem reference_admitted : Config.reference.admitted = true := by decide +kernel

theorem edge_tick : exec .tick edge = .next (recomputeEffect 100 edge) :=
  (exec_tick_next _ _).mpr ⟨edge_ready, by decide +kernel⟩
theorem beat_tick : exec .tick beat = .next (countEffect beat) :=
  (exec_tick_next _ _).mpr ⟨beat_ready, by decide +kernel⟩
theorem edge_reset : exec (.reset 3) edge = .next (resetEffect 3 edge) :=
  (exec_reset_next _ _ _).mpr ⟨reference_admitted, rfl⟩
theorem beat_idle : exec .idle beat = .next (idleEffect beat) := (exec_idle_next _ _).mpr ⟨beat_ready, rfl⟩

/-- The registers' ranges, spelled as the statements spell them, with each register at its bound. -/
theorem edge_ranges :
    edge.ival = (if edge.sys = .systole then 2 * edge.cfg.modBase else edge.cfg.modBase) ∧ edge.tcnt < edge.ival ∧
    edge.psel.toNat < edge.cfg.presetCount ∧ edge.pcnt.toNat ≤ 254 := by decide +kernel

theorem witness_OperandIsReadByResetAlone : (0x3FE : ControlWord).getLsbD 1 = true ∧ edge.cfg.admitted = true :=
  ⟨by decide, reference_admitted⟩
theorem witness_TickWithResetIsDiscarded : 1023 < 1024 := by decide
theorem witness_DecodeAndEncodeAgree : 1024 ≤ 1024 := by decide
theorem witness_StatementsExpandToTheirWords : 255 ≤ 255 ∧ 255 < 256 ∧ 1 ≤ 1 := by decide
theorem witness_ProgramWordsDecodeToTheProgram :
    programWellFormed [.reset 255, .recomputes 1] = true ∧ programWellFormed [.ticks 1] = true := by decide
theorem witness_CommentsHaveNoMeaning : ';' ∉ "TICKS 6 ".toList := by decide +kernel
theorem witness_EdgeRunsTheSampledWord :
    decodeControl edge.pins = .idle ∧ 0x3FF < 2 ^ 10 ∧ decodeTableWord 10 0x3FF = some (.reset 255) := by decide +kernel
theorem witness_EveryStrobedEdgeIsOneTick :
    edge.ready ∧ ∀ cw ∈ ([0x001, 0x3FD, 0x000] : List ControlWord), cw.getLsbD 1 = false :=
  ⟨edge_ready, by decide⟩
/-- One state per clause: power-on, and a running state that breaks each invariant by one; `edge` meets the third. -/
theorem witness_OperationHasItsThreeOutcomes :
    (State.powerOn Config.reference edge).cfg.admitted = true ∧ (State.powerOn Config.reference edge).life = .unreset ∧
    (∀ s ∈ [{ edge with tcnt := 2 }, { edge with psel := 4 }, { edge with pcnt := 255 }, { edge with ival := 4 }],
      s.cfg.admitted = true ∧ s.life = .running ∧
      ¬ (s.ival = (if s.sys = .systole then 2 * s.cfg.modBase else s.cfg.modBase) ∧ s.tcnt < s.ival ∧
          s.psel.toNat < s.cfg.presetCount ∧ s.pcnt.toNat ≤ 254)) ∧
    edge.cfg.admitted = true ∧ edge.life = .running := by decide +kernel
theorem witness_IllegalConfigurationsAreRefused :
    ∀ c ∈ [{ Config.reference with baseNum := 100 }, { Config.reference with presetNum := [25, 0] },
        { Config.reference with modBase := 0 }, { Config.reference with modBase := 32768 },
        { Config.reference with presetNum := [] }, { Config.reference with tcntW := 1 }],
      ({ edge with cfg := c } : State).cfg.admitted = false := by decide +kernel
theorem witness_ResetWritesEveryRegister : edge.cfg.admitted = true ∧ (0x003 : ControlWord) &&& 0x002 = 0x002 := by
  decide +kernel
theorem witness_HeldResetDependsOnTheLastIndex : edge.cfg.admitted = true := reference_admitted
theorem witness_MidSessionResetRestarts : edge.cfg.admitted = true ∧ sessionOps [.tick, .idle, .tick] = true :=
  ⟨reference_admitted, by decide⟩
theorem witness_PowerOnAdmitsOnlyReset :
    Config.reference.admitted = true ∧ beat.pins = edge.pins ∧ beat.stimulus = edge.stimulus := by decide +kernel
theorem witness_IdleStepsOnlyThePwmStage :
    edge.ready ∧ edge.pcnt = 254 ∧ beat.ready ∧ beat.pcnt ≠ 254 ∧ (0x3FC : ControlWord) &&& 0x003 = 0x000 :=
  ⟨edge_ready, rfl, beat_ready, by decide, by decide⟩
theorem witness_TickFollowsItsTransfers :
    edge.ready ∧ (edge.tcnt + 1) % 2 ^ edge.cfg.tcntW = edge.ival ∧
    beat.ready ∧ (beat.tcnt + 1) % 2 ^ beat.cfg.tcntW ≠ beat.ival ∧ (0x3FD : ControlWord) &&& 0x003 = 0x001 :=
  ⟨edge_ready, by decide +kernel, beat_ready, by decide +kernel, by decide⟩
theorem witness_OnlyTheNamedOperationsWriteARegister :
    exec .tick beat = .next (countEffect beat) ∧ exec .idle beat = .next (idleEffect beat) ∧
    (∀ p, Instr.tick ≠ .reset p) ∧ (beat.tcnt + 1) % 2 ^ beat.cfg.tcntW ≠ beat.ival ∧ beat.pstep ≠ 255 ∧
    beat.pcnt ≠ 254 :=
  ⟨beat_tick, beat_idle, nofun, by decide +kernel, by decide, by decide⟩
theorem witness_PhaseTogglesExactlyAtTheWrap :
    exec .tick edge = .next (recomputeEffect 100 edge) ∧ (∀ p, Instr.tick ≠ .reset p) ∧
    (recomputeEffect 100 edge).sys ≠ edge.sys ∧ edge.ready ∧ (edge.tcnt + 1) % 2 ^ edge.cfg.tcntW = edge.ival ∧
    edge.pstep = 255 :=
  ⟨edge_tick, nofun, by decide +kernel, edge_ready, by decide +kernel, rfl⟩
theorem witness_PresetReadIsInRange :
    Reachable (resetEffect 3 edge) ∧ ({ edge with psel := 4 } : State).cfg.admitted = true ∧
    ({ edge with psel := 4 } : State).cfg.presetCount ≤ ({ edge with psel := 4 } : State).psel.toNat :=
  ⟨.afterReset 3 edge _ edge_reset, reference_admitted, by decide +kernel⟩
theorem witness_RomHoldsTheTable : waveRefBytes.length = 256 := by decide +kernel
theorem witness_ReferenceTableShape : (1 : Byte) ≠ 0 ∧ (127 : Byte) < 128 ∧ (128 : Byte) ≤ 254 ∧ (254 : Byte) < 255 := by
  decide
theorem witness_EveryStepKeepsTheStateSafe :
    edge.cfg.admitted = true ∧ Memory.wf edge.cfg.wave = true ∧ edge.ival = edge.cfg.modBase ∧ edge.tcnt < edge.ival ∧
    step { edge with pins := 0x001 } = .next (recomputeEffect 100 { edge with pins := 0x001 }) :=
  ⟨reference_admitted, waveRef_wf, rfl, by decide +kernel,
    (exec_tick_next _ _).mpr ⟨⟨reference_admitted, rfl, by decide +kernel⟩, by decide +kernel⟩⟩
theorem witness_ReachableStatesMeetTheInvariants :
    Reachable (resetEffect 3 edge) ∧ ({ edge with tcnt := 2 } : State).cfg.admitted = true ∧
    ¬ ({ edge with tcnt := 2 } : State).tcnt < ({ edge with tcnt := 2 } : State).ival :=
  ⟨.afterReset 3 edge _ edge_reset, reference_admitted, by decide⟩
theorem witness_RecomputationsAreOneIntervalApart :
    beat.ready ∧ beat.tcnt = 0 ∧ sessionOps [.tick, .idle, .tick, .tick, .tick] = true ∧
    tickCount [.tick, .idle, .tick, .tick, .tick] = (if beat.sys = .systole then 2 * beat.cfg.modBase else beat.cfg.modBase) ∧
    tickCount [.tick, .idle, .tick, .tick] < 4 ∧ tickCount [.tick] < edge.cfg.modBase ∧
    tickCount [.tick, .tick] = edge.cfg.modBase :=
  ⟨beat_ready, rfl, by decide, by decide +kernel, by decide, by decide +kernel, by decide +kernel⟩
theorem witness_PhasesLastTwoHundredFiftySixRecomputations :
    beat.ready ∧ beat.tcnt = 0 ∧ beat.pstep = 0 ∧
    (∀ n, sessionOps (List.replicate n .tick) = true ∧ tickCount (List.replicate n .tick) = n) ∧
    1023 < 256 * (2 * beat.cfg.modBase) ∧ 1024 = 256 * (2 * beat.cfg.modBase) ∧ 1536 = 768 * beat.cfg.modBase :=
  ⟨beat_ready, rfl, rfl, fun n => ⟨sessionOps_replicate_tick n, tickCount_replicate_tick n⟩, by decide +kernel,
    by decide +kernel, by decide +kernel⟩
theorem witness_EngineHasItsClosedForm :
    edge.cfg.admitted = true ∧ sessionOps [.tick, .idle, .tick] = true ∧
    edge.cfg.presetNum[(resolvePreset edge.cfg 3).toNat]? = some 100 ∧
    edge.cfg.presetNum[(resolvePreset edge.cfg 4).toNat]? = some 25 := by decide +kernel
theorem witness_EngineIsPeriodic :
    edge.cfg.admitted = true ∧ (∀ n, sessionOps (List.replicate n .tick) = true) ∧
    tickCount (List.replicate 1538 .tick) = tickCount (List.replicate 2 .tick) + 768 * edge.cfg.modBase ∧
    edge.cfg.modBase ≤ tickCount (List.replicate 2 .tick) ∧
    tickCount (List.replicate 1537 .tick) = tickCount (List.replicate 1 .tick) + 768 * edge.cfg.modBase ∧
    tickCount (List.replicate 1 .tick) < edge.cfg.modBase := by
  simp only [tickCount_replicate_tick]
  exact ⟨reference_admitted, sessionOps_replicate_tick, by decide +kernel⟩
/-- The bounds of each clause for B = 2, in the first cycle, in both orders: recomputations 1, 255, 256, 257, 511 and
512 start at TICKs 2, 510, 512, 516, 1532 and 1536. -/
theorem witness_DutySequenceOfACycle :
    edge.cfg.admitted = true ∧ edge.cfg.order = .lookupFirst ∧
    ({ Config.reference with order := .advanceFirst } : Config).admitted = true ∧
    edge.cfg.presetNum[(resolvePreset edge.cfg 3).toNat]? = some 100 ∧ edge.cfg.modBase = 2 ∧
    (768 * 2 * 0 + 1 * 2 ≤ 2 ∧ 2 < 768 * 2 * 0 + 1 * 2 + 2) ∧ (768 * 2 * 0 + 255 * 2 ≤ 511 ∧ 511 < 768 * 2 * 0 + 255 * 2 + 2) ∧
    (768 * 2 * 0 + 256 * 2 ≤ 512 ∧ 515 < 768 * 2 * 0 + 256 * 2 + 2 * 2) ∧
    (768 * 2 * 0 + 256 * 2 + (257 - 256) * (2 * 2) ≤ 516 ∧ 519 < 768 * 2 * 0 + 256 * 2 + (257 - 256) * (2 * 2) + 2 * 2) ∧
    (768 * 2 * 0 + 256 * 2 + (511 - 256) * (2 * 2) ≤ 1532 ∧ 1535 < 768 * 2 * 0 + 256 * 2 + (511 - 256) * (2 * 2) + 2 * 2) ∧
    (768 * 2 * 0 + 768 * 2 ≤ 1536 ∧ 1537 < 768 * 2 * 0 + 768 * 2 + 2) := by decide +kernel
theorem witness_IdleEdgesDoNotChangeTheEngine : beat.ready ∧ sessionOps [.idle, .tick, .idle] = true :=
  ⟨beat_ready, by decide⟩
theorem witness_RecomputesStatementRecomputes :
    (regs .diastole 250 2 0 0 3 false 0 0).ready ∧ (250 : Byte).toNat + 5 ≤ 255 :=
  ⟨⟨by decide +kernel, rfl, by decide +kernel⟩, by decide⟩
theorem witness_HostSessionKeepsItsPreset :
    Config.reference.admitted = true ∧ HostSession Config.reference 3 [.reset 0, .reset 3, .tick, .idle] :=
  ⟨reference_admitted, by decide +kernel, [0], [.tick, .idle], rfl, by decide⟩
theorem witness_DatapathComputesTheExactScale : Config.reference.admitted = true ∧ 100 ≤ Config.reference.fracDen := by
  decide +kernel
theorem witness_ConversionToEightBits :
    255 ≤ 255 ∧ 255 < 256 ∧ Config.reference.admitted = true ∧ 100 ≤ Config.reference.fracDen := by decide +kernel
theorem witness_DutyStaysInItsRange :
    (flags true false).admitted = true ∧ (flags true true).admitted = true ∧ (1 ≤ 1 ∧ 1 ≤ (flags true false).fracDen) ∧
    (1 ≤ 100 ∧ 100 ≤ (flags true true).fracDen) ∧ (flags true false).blendTrunc = false ∧
    (flags true true).blendTrunc = true := by decide +kernel
theorem witness_ScalerIsMonotone :
    Config.reference.admitted = true ∧ (99 ≤ 100 ∧ 100 ≤ Config.reference.fracDen) ∧ (254 : Byte) ≤ 255 := by
  decide +kernel
theorem witness_TruncationCostsAtMostOneEach : Config.reference.admitted = true ∧ 75 ≤ Config.reference.fracDen := by
  decide +kernel
theorem witness_DutyPortHoldsBetweenRecomputations :
    exec .tick edge = .next (recomputeEffect 100 edge) ∧ (recomputeEffect 100 edge).duty ≠ edge.duty ∧
    exec (.reset 3) edge = .next (resetEffect 3 edge) ∧ (resetEffect 3 edge).duty ≠ edge.duty :=
  ⟨edge_tick, by decide +kernel, edge_reset, by decide +kernel⟩
theorem witness_WriteStrobeFollowsEveryTick : beat.ready := beat_ready
theorem witness_PwmStepIsTheSameForIdleAndTick :
    edge.ready ∧ edge.pcnt = 254 ∧ beat.ready ∧ beat.pcnt ≠ 254 ∧ exec (.reset 3) edge = .next (resetEffect 3 edge) :=
  ⟨edge_ready, rfl, beat_ready, by decide, edge_reset⟩
/-- A running state at the start of a PWM period, and 254 further edges. -/
theorem witness_PeriodUsesOneDutyValue :
    ({ beat with pcnt := 0 } : State).ready ∧ sessionOps (List.replicate 254 .tick) = true ∧
    isSessionOp .tick = true ∧ (List.replicate 254 Instr.tick).length = 254 :=
  ⟨⟨reference_admitted, rfl, by decide +kernel⟩, sessionOps_replicate_tick 254, rfl, List.length_replicate⟩
theorem witness_DutyFractionOfAPeriod :
    (∀ d ∈ [(0 : Byte), 102, 255], State.ready { beat with pcnt := 0, dact := d }) ∧
    sessionOps (List.replicate 254 .tick) = true :=
  ⟨fun _ _ => ⟨reference_admitted, rfl, rfl⟩, sessionOps_replicate_tick 254⟩
theorem witness_DutyReachesTheWaveformAtTheNextBoundary :
    edge.ready ∧ ([] : List Instr).length + 1 = 255 - edge.pcnt.toNat ∧ isSessionOp .tick = true ∧
    ({ beat with pcnt := 0 } : State).ready ∧ (List.replicate 254 Instr.tick).length + 1 = 255 - (0 : Byte).toNat ∧
    sessionOps (List.replicate 254 .tick) = true ∧ edge.cfg.admitted = true ∧ (List.replicate 254 Instr.tick).length ≤ 254 :=
  ⟨edge_ready, rfl, rfl, ⟨reference_admitted, rfl, by decide +kernel⟩,
    by rw [List.length_replicate]; rfl, sessionOps_replicate_tick 254, reference_admitted,
    by rw [List.length_replicate]⟩
theorem witness_PwmStageIsReadByNoEngineRegister : edge.ready ∧ (254 : Byte).toNat ≤ 254 := ⟨edge_ready, by decide⟩

end Sys2Proof.Tests
end

section
/-! PROOFS. Scope: the block neither reads nor writes what the host drives on the pins, so a loaded program runs as its
operations do (30_encoding.md R70, R79), and which configurations are refused (00_scope.md R7, R8, R14). -/

namespace Sys2Proof.Machine

/-! ### Replacing the inputs of a state and of an outcome -/

/-- The state with other levels on the pins and other words to come. -/
def State.withInputs (s : State) (pins : ControlWord) (stimulus : List ControlWord) : State :=
  { s with pins := pins, stimulus := stimulus }

/-- An outcome whose next state, if there is one, has the given inputs; `withoutInputs` is the case of pins at 0 and no
word to come. -/
def nextWithInputs (pins : ControlWord) (stimulus : List ControlWord) :
    Host.Outcome State Fault Refusal → Host.Outcome State Fault Refusal
  | .next s => .next (s.withInputs pins stimulus)
  | .fault f => .fault f
  | .refused r => .refused r

section
variable (s t : State) (p : ControlWord) (q : List ControlWord)

@[simp] theorem withInputs_cfg : (s.withInputs p q).cfg = s.cfg := rfl
@[simp] theorem withInputs_pins : (s.withInputs p q).pins = p := rfl
@[simp] theorem withInputs_stimulus : (s.withInputs p q).stimulus = q := rfl
@[simp] theorem withInputs_admitsAll : (s.withInputs p q).admitsAll = s.admitsAll := rfl
@[simp] theorem withInputs_recompute : recompute (s.withInputs p q) = recompute s := rfl
@[simp] theorem withInputs_presetNumerator : presetNumerator (s.withInputs p q) = presetNumerator s := rfl
@[simp] theorem withInputs_countEffect : countEffect (s.withInputs p q) = (countEffect s).withInputs p q := rfl
@[simp] theorem withInputs_recomputeEffect (m : Nat) :
    recomputeEffect m (s.withInputs p q) = (recomputeEffect m s).withInputs p q := rfl

@[simp] theorem nextWithInputs_next : nextWithInputs p q (.next t) = .next (t.withInputs p q) := rfl
@[simp] theorem nextWithInputs_refused (r : Refusal) : nextWithInputs p q (.refused r) = .refused r := rfl

/-- The inputs an outcome is given are among those `withoutInputs` drops. -/
@[simp] theorem withoutInputs_nextWithInputs (o : Host.Outcome State Fault Refusal) :
    withoutInputs (nextWithInputs p q o) = withoutInputs o := by
  cases o <;> rfl

/-- After an edge the pins take the first of the words to come, or hold their level (log 5). -/
theorem advancePins_withInputs :
    (s.withInputs p q).advancePins = s.withInputs (q.headD p) q.tail := advancePins_eq _

/-- A loaded program is its first word on the pins and the others to come (log 6). -/
theorem loadProgram_eq_withInputs (ws : List ControlWord) :
    s.loadProgram ws = s.withInputs (ws.headD s.pins) ws.tail := by
  cases ws <;> rfl

/-! ### The operations neither read nor write the inputs -/

/-- IDLE's and TICK's frame passes the inputs through when the effect does (40_operations.md R100). -/
theorem operate_withInputs (e : State → Option State)
    (he : e (s.withInputs p q) = (e s).map fun t => t.withInputs p q) :
    operate e (s.withInputs p q) = nextWithInputs p q (operate e s) := by
  simp only [operate, withInputs_cfg, withInputs_admitsAll, he]
  cases s.cfg.admitted with
  | false => rfl
  | true =>
    cases s.admitsAll with
    | false => rfl
    | true => cases e s <;> rfl

/-- RESET's frame passes the inputs through when the effect does (40_operations.md R101). -/
theorem operateAnyState_withInputs (e : State → State) (he : e (s.withInputs p q) = (e s).withInputs p q) :
    operateAnyState e (s.withInputs p q) = nextWithInputs p q (operateAnyState e s) := by
  simp only [operateAnyState, withInputs_cfg, he]
  cases s.cfg.admitted <;> rfl

/-- TICK's register transfers pass the inputs through, with or without a recomputation (40_operations.md R103). -/
theorem tickEffect_withInputs :
    tickEffect (s.withInputs p q) = (tickEffect s).map fun t => t.withInputs p q := by
  cases hr : recompute s with
  | false => simp [tickEffect, hr]
  | true => simp [tickEffect, hr, Function.comp_def]

/-- An operation has the same outcome whatever the host drives, and leaves what the host drives as it is. -/
theorem exec_withInputs (i : Instr) : exec i (s.withInputs p q) = nextWithInputs p q (exec i s) := by
  cases i with
  | idle => exact operate_withInputs s p q (fun u => some (idleEffect u)) rfl
  | tick => exact operate_withInputs s p q tickEffect (tickEffect_withInputs s p q)
  | reset index => exact operateAnyState_withInputs s p q (resetEffect index) rfl

/-- An edge performs the sampled word's operation while the host moves on (30_encoding.md R70). -/
theorem step_withInputs :
    step (s.withInputs p q) = nextWithInputs (q.headD p) q.tail (exec (decodeControl p) s) := by
  rw [step, advancePins_withInputs, exec_withInputs, withInputs_pins]

end

/-! ### Runs of a loaded program -/

/-- A run of operations ends at the first refusal. -/
theorem runOps_cons_refused (i : Instr) (rest : List Instr) (s : State) (r : Refusal) (h : exec i s = .refused r) :
    runOps (i :: rest) s = .refused r := by
  simp [runOps, h]

/-- A run over as many edges as there are words performs the words' operations in order; at its end no word is left and
the pins hold the last one, or the level `p` they had when there was no word. -/
theorem core_run_withInputs (ws : List ControlWord) (s : State) (p : ControlWord) :
    Host.Core.run Sys2Proof.core ws.length (s.withInputs (ws.headD p) ws.tail) =
      nextWithInputs (ws.getLastD p) [] (runOps (ws.map decodeControl) s) := by
  induction ws generalizing s p with
  | nil => rfl
  | cons cw rest ih =>
    have hstep : step (s.withInputs cw rest) =
        nextWithInputs (rest.headD cw) rest.tail (exec (decodeControl cw) s) := step_withInputs s cw rest
    simp only [List.headD_cons, List.tail_cons, List.length_cons, List.map_cons, List.getLastD_cons]
    cases hexec : exec (decodeControl cw) s with
    | next t =>
      rw [hexec, nextWithInputs_next] at hstep
      rw [core_run_next _ _ _ hstep, runOps_cons_next _ _ _ _ hexec, ih t cw]
    | fault f => exact absurd hexec (exec_not_fault _ _ f)
    | refused r =>
      rw [hexec, nextWithInputs_refused] at hstep
      have hops := runOps_cons_refused _ (rest.map decodeControl) s r hexec
      exact (core_run_refused _ _ _ hstep).trans (congrArg (nextWithInputs (rest.getLastD cw) []) hops).symm

/-- Settles O10: the exact run of a loaded program, with its last inputs dropped. -/
theorem programRunsOneWordPerEdge : Obligations.ProgramRunsOneWordPerEdge := by
  intro s ws
  rw [loadProgram_eq_withInputs, core_run_withInputs, withoutInputs_nextWithInputs]

/-! ### Configurations that are refused -/

/-- In an illegal configuration RESET's frame refuses (00_scope.md R8; log 11). -/
theorem operateAnyState_illegalConfig (e : State → State) (s : State) (hc : s.cfg.admitted = false) :
    operateAnyState e s = .refused .illegalConfig := by
  simp [operateAnyState, hc]

/-- In an illegal configuration every operation is refused (00_scope.md R8; log 11). -/
theorem exec_illegalConfig (i : Instr) (s : State) (hc : s.cfg.admitted = false) :
    exec i s = .refused .illegalConfig := by
  cases i with
  | idle => exact operate_illegalConfig (fun u => some (idleEffect u)) s hc
  | tick => exact operate_illegalConfig tickEffect s hc
  | reset p => exact operateAnyState_illegalConfig (resetEffect p) s hc

/-- Settles O14: the ranges of an admitted and of a legal configuration, and the refusal of every operation outside
them. -/
theorem illegalConfigurationsAreRefused : Obligations.IllegalConfigurationsAreRefused :=
  ⟨admitted_iff, legal_iff, exec_illegalConfig⟩

end Sys2Proof.Machine
end

section
/-! PROOFS. State: every operation that goes on ends in a state that is ready for the next one, so the invariants hold in
every reachable state (10_state.md R33); which operation may change which register (10_state.md R22 to R31). -/

namespace Sys2Proof.Machine

/-! ### The invariants and the conditions of a TICK, as the statements spell them -/

/-- `Interval(x) = (x == 1) ? 2·B : B`, as written (41_phase_counter.md R125). -/
theorem interval_eq_ite (c : Config) (ph : Phase) :
    interval c ph = if ph = .systole then 2 * c.modBase else c.modBase := by
  cases ph <;> rfl

/-- An admitted configuration's intervals last at least one tick (00_scope.md R7 `MOD_BASE`). -/
theorem interval_pos (c : Config) (hc : c.admitted = true) (ph : Phase) : 0 < interval c ph := by
  have hb := (admitted_width c hc).1
  cases ph <;> simp only [interval] <;> omega

/-- INV1 to INV4 with the interval written out (10_state.md R33). -/
theorem inv_iff_ite (s : State) :
    s.inv = true ↔
      s.ival = (if s.sys = .systole then 2 * s.cfg.modBase else s.cfg.modBase) ∧ s.tcnt < s.ival ∧
      s.psel.toNat < s.cfg.presetCount ∧ s.pcnt.toNat ≤ 254 := by
  rw [inv_iff, interval_eq_ite]

/-- A TICK recomputes exactly when the next count equals IVAL (41_phase_counter.md R120, R121). -/
theorem recompute_iff (s : State) : recompute s = true ↔ (s.tcnt + 1) % 2 ^ s.cfg.tcntW = s.ival := by
  simp [recompute, nextTick]

/-- The phase step wraps exactly at 255 (41_phase_counter.md R122, R123). -/
theorem wrap_iff (s : State) : wrap s = true ↔ s.pstep = 255 := by
  simp only [wrap, nextPhaseStep, beq_iff_eq]
  bv_omega

/-- Short of the last phase step the phase stays (41_phase_counter.md R124). -/
theorem nextPhase_of_pstep_ne (s : State) (h : s.pstep ≠ 255) : nextPhase s = s.sys :=
  if_neg (mt (wrap_iff s).mp h)

/-- Short of the last phase step the interval stays (41_phase_counter.md R125). -/
theorem nextInterval_of_pstep_ne (s : State) (h : s.pstep ≠ 255) : nextInterval s = s.ival :=
  if_neg (mt (wrap_iff s).mp h)

/-- The PWM stage holds its duty value within a period (44_pwm_output.md R174). -/
theorem pwmShadow_of_pcnt_ne (s : State) (h : s.pcnt ≠ 254) : pwmShadow s = s.dact := if_neg h

/-- Under INV1 a recomputation gives the interval of the phase it gives (41_phase_counter.md R125). -/
theorem nextInterval_eq_interval (s : State) (h : s.ival = interval s.cfg s.sys) :
    nextInterval s = interval s.cfg (nextPhase s) := by
  cases hw : wrap s <;> simp [nextInterval, nextPhase, hw, h]

/-! ### Each operation's register transfers end in the invariants -/

/-- IDLE moves only the position in the PWM period (40_operations.md R102). -/
theorem idleEffect_inv (s : State) (hs : s.ready) : (idleEffect s).inv = true := by
  obtain ⟨hival, htcnt, hpsel, hpcnt⟩ := (inv_iff s).mp hs.2.2
  exact (inv_iff _).mpr ⟨hival, htcnt, hpsel, pwmCount_le s hpcnt⟩

/-- A TICK that does not recompute leaves the count below the interval (41_phase_counter.md R121). -/
theorem countEffect_inv (s : State) (hs : s.ready) (hr : recompute s = false) : (countEffect s).inv = true := by
  obtain ⟨hival, -, hpsel, hpcnt⟩ := (inv_iff s).mp hs.2.2
  obtain ⟨hnext, hlt⟩ := ready_nextTick s hs
  have hne : s.tcnt + 1 ≠ s.ival := by simpa [hr] using ready_recompute s hs
  have htcnt : nextTick s < s.ival := by omega
  exact (inv_iff _).mpr ⟨hival, htcnt, hpsel, pwmCount_le s hpcnt⟩

/-- A recomputation TICK starts the interval of the phase it ends in (40_operations.md R103). -/
theorem recomputeEffect_inv (m : Nat) (s : State) (hs : s.ready) : (recomputeEffect m s).inv = true := by
  obtain ⟨hival, -, hpsel, hpcnt⟩ := (inv_iff s).mp hs.2.2
  have hnext : nextInterval s = interval s.cfg (nextPhase s) := nextInterval_eq_interval s hival
  have hpos : 0 < nextInterval s := hnext ▸ interval_pos s.cfg hs.1 (nextPhase s)
  exact (inv_iff _).mpr ⟨hnext, hpos, hpsel, pwmCount_le s hpcnt⟩

/-- RESET establishes the invariants from any registers (40_operations.md R101). -/
theorem resetEffect_inv (p : Byte) (s : State) (hc : s.cfg.admitted = true) : (resetEffect p s).inv = true :=
  (inv_iff _).mpr ⟨rfl, interval_pos s.cfg hc .diastole, resolvePreset_lt s.cfg hc p, by simp⟩

/-! ### Runs stay ready -/

/-- An operation that goes on, from whatever state, ends in one that is ready for every operation. -/
theorem exec_next_ready (i : Instr) (s t : State) (h : exec i s = .next t) : t.ready := by
  rcases exec_next_cases i s t h with
    ⟨-, hs, rfl⟩ | ⟨-, hs, hr, rfl⟩ | ⟨-, hs, -, m, -, rfl⟩ | ⟨p, -, hc, rfl⟩
  · exact ⟨hs.1, hs.2.1, idleEffect_inv s hs⟩
  · exact ⟨hs.1, hs.2.1, countEffect_inv s hs hr⟩
  · exact ⟨hs.1, hs.2.1, recomputeEffect_inv m s hs⟩
  · exact ⟨hc, rfl, resetEffect_inv p s hc⟩

/-- A ready state's TICK has its register transfers, since the preset read is in range (20_memory.md R53). -/
theorem tickEffect_ready (s : State) (hs : s.ready) : ∃ t, tickEffect s = some t := by
  obtain ⟨m, hm⟩ := ready_preset s hs
  cases hr : recompute s <;> simp [tickEffect, hr, hm]

/-- A ready state refuses no operation (40_operations.md R100). -/
theorem ready_exec (s : State) (hs : s.ready) (i : Instr) : ∃ t, exec i s = .next t := by
  cases i with
  | idle => exact ⟨_, (exec_idle_next s _).mpr ⟨hs, rfl⟩⟩
  | tick =>
    obtain ⟨t, ht⟩ := tickEffect_ready s hs
    exact ⟨t, (exec_tick_next s t).mpr ⟨hs, ht⟩⟩
  | reset p => exact ⟨_, (exec_reset_next p s _).mpr ⟨hs.1, rfl⟩⟩

/-- Every state reached from a RESET is ready (10_state.md R33). -/
theorem Reachable.ready {s : State} (h : Reachable s) : s.ready := by
  cases h with
  | afterReset p u _ hexec => exact exec_next_ready (.reset p) u s hexec
  | afterOp i u _ _ hexec => exact exec_next_ready i u s hexec

/-- IDLE and TICK are refused from a state that breaks an invariant (40_operations.md R100). -/
theorem exec_idle_tick_refused (s : State) (hc : s.cfg.admitted = true) (hi : s.inv = false) :
    exec .idle s = .refused .illegalState ∧ exec .tick s = .refused .illegalState := by
  have hnot : s.admitsAll = false := by simp [State.admitsAll, hi]
  exact ⟨operate_notAdmitted (fun u => some (idleEffect u)) s hc hnot, operate_notAdmitted tickEffect s hc hnot⟩

/-- Settles O28: reachable states are ready, and IDLE and TICK check the invariants. -/
theorem reachableStatesMeetTheInvariants : Obligations.ReachableStatesMeetTheInvariants := by
  refine ⟨fun s hs => ?_, fun s hc hbroken => ?_⟩
  · obtain ⟨-, hlife, hinv⟩ := hs.ready
    obtain ⟨hival, htcnt, hpsel, hpcnt⟩ := (inv_iff_ite s).mp hinv
    refine ⟨hlife, hival, htcnt, hpsel, hpcnt, fun i => ?_⟩
    obtain ⟨t, ht⟩ := ready_exec s hs.ready i
    exact ⟨t, ht, .afterOp i s t hs ht⟩
  · exact exec_idle_tick_refused s hc (Bool.eq_false_iff.mpr (mt (inv_iff_ite s).mp hbroken))

/-! ### What an operation leaves unchanged -/

/-- No operation writes the configuration, with its tables, or what the host drives (00_scope.md R7; 20_memory.md R54,
R63). -/
theorem exec_keeps_cfg_and_inputs (i : Instr) (s t : State) (h : exec i s = .next t) :
    t.cfg = s.cfg ∧ t.pins = s.pins ∧ t.stimulus = s.stimulus := by
  rcases exec_next_cases i s t h with ⟨-, -, rfl⟩ | ⟨-, -, -, rfl⟩ | ⟨-, -, -, m, -, rfl⟩ | ⟨p, -, -, rfl⟩ <;>
    exact ⟨rfl, rfl, rfl⟩

/-- No edge writes the configuration, with its tables (00_scope.md R7; 20_memory.md R63). -/
theorem step_keeps_cfg (s t : State) (h : step s = .next t) : t.cfg = s.cfg :=
  (exec_keeps_cfg_and_inputs _ _ _ h).1.trans (advancePins_cfg s)

/-- Settles O27: an edge that goes on keeps the configuration with its table and ends in a ready state.  Only the table's
form is needed of the state before: the operations check the rest themselves. -/
theorem everyStepKeepsTheStateSafe : Obligations.EveryStepKeepsTheStateSafe := by
  intro s t _ hwave _ hstep
  obtain ⟨hadmitted, -, hinv⟩ := exec_next_ready _ _ _ hstep
  exact ⟨hadmitted, step_keeps_cfg s t hstep ▸ hwave, fun _ => (inv_iff_ite t).mp hinv⟩

/-- Settles O22: each register transfer writes the registers the statement lets it write. -/
theorem onlyTheNamedOperationsWriteARegister : Obligations.OnlyTheNamedOperationsWriteARegister := by
  intro i s t h
  obtain ⟨hcfg, hpins, hstimulus⟩ := exec_keeps_cfg_and_inputs i s t h
  refine ⟨hcfg, hpins, hstimulus, fun a => by rw [hcfg], fun hnoReset => ?_⟩
  rcases exec_next_cases i s t h with ⟨-, -, rfl⟩ | ⟨rfl, -, -, rfl⟩ | ⟨rfl, -, hr, m, -, rfl⟩ | ⟨p, hi, -, -⟩
  · exact ⟨rfl, rfl, fun _ => ⟨rfl, rfl, rfl, rfl, rfl⟩, fun _ => ⟨rfl, rfl, rfl, rfl⟩, fun _ => ⟨rfl, rfl⟩,
      pwmShadow_of_pcnt_ne s⟩
  · exact ⟨rfl, rfl, nofun, fun _ => ⟨rfl, rfl, rfl, rfl⟩, fun _ => ⟨rfl, rfl⟩, pwmShadow_of_pcnt_ne s⟩
  · exact ⟨rfl, rfl, nofun, fun hne => absurd ((recompute_iff s).mp hr) hne,
      fun hne => ⟨nextPhase_of_pstep_ne s hne, nextInterval_of_pstep_ne s hne⟩, pwmShadow_of_pcnt_ne s⟩
  · exact absurd hi (hnoReset p)

/-! ### The state after reset -/

/-- The state after reset is one that a RESET edge gives: RESET 0 leaves it as it is (10_state.md R39; log 3). -/
theorem exec_reset_reset : exec (.reset 0) State.reset = .next State.reset :=
  (exec_reset_next 0 State.reset State.reset).mpr ⟨by decide, rfl⟩

/-- Settles O19: the state after reset follows a RESET, so it is ready, and its table is the reference table. -/
theorem resetStateIsSafeAndReady : Obligations.ResetStateIsSafeAndReady := by
  have hready : State.reset.ready := exec_next_ready _ _ _ exec_reset_reset
  exact ⟨⟨hready.1, waveRef_wf, fun _ => hready.2.2⟩, hready⟩

end Sys2Proof.Machine
end

section
/-! PROOFS. The two tables' reads: the ROM built from a table reads the table, and the preset read is in range
(20_memory.md R50 to R53). -/

namespace Sys2Proof

/-- The cell list of a table laid out from `base` reads the table: a listed byte stands in its cell, and an address
without a cell reads the byte that was left out (log 8). -/
theorem romFind_ofBytesAt_getD (base i : Nat) (table : List Byte) (h : base + table.length ≤ 256) :
    (romFind (base + i) (Memory.ofBytesAt base table)).getD unlistedByte = table.getD i unlistedByte := by
  induction table generalizing base i with
  | nil => rfl
  | cons v rest ih =>
    have hrest : base + 1 + rest.length ≤ 256 := by rw [List.length_cons] at h; omega
    cases i with
    | zero =>
      have hnone : romFind base (Memory.ofBytesAt (base + 1) rest) = none :=
        romFind_below _ (base + 1) base (ofBytesAt_wf (base + 1) rest hrest) (by omega)
      by_cases hv : v = unlistedByte <;> simp [Memory.ofBytesAt, romFind, hv, hnone]
    | succ j =>
      have hnext := ih (base + 1) j hrest
      rw [Nat.add_right_comm, Nat.add_assoc] at hnext
      by_cases hv : v = unlistedByte <;> simpa [Memory.ofBytesAt, romFind, hv] using hnext

/-- A ROM byte is the table's entry at its address, and the unlisted byte beyond the table (20_memory.md R50, R51). -/
theorem memRead_ofBytes (table : List Byte) (a : Byte) (h : table.length ≤ 256) :
    memRead (Memory.ofBytes table) a = table.getD a.toNat unlistedByte := by
  simpa [memRead, Memory.ofBytes] using romFind_ofBytesAt_getD 0 a.toNat table (by omega)

/-- Settles O25: the ROM reads the table, and every 8-bit address is inside a table of 256 bytes. -/
theorem romHoldsTheTable : Obligations.RomHoldsTheTable := by
  intro table a hlen
  have hin : a.toNat < table.length := hlen ▸ a.isLt
  rw [memRead_ofBytes table a hlen.le, List.getD_eq_getElem _ _ hin, List.getElem?_eq_getElem hin]

namespace Machine

/-- Settles O24: a reachable state is ready, so it keeps INV3, and a state that breaks INV3 is refused a TICK. -/
theorem presetReadIsInRange : Obligations.PresetReadIsInRange := by
  refine ⟨fun s hs => ?_, fun s hc hpsel => ?_⟩
  · obtain ⟨m, hm⟩ := ready_preset s hs.ready
    exact ⟨m, hm, hm⟩
  · have hbroken : ¬ s.inv = true := fun hinv => by
      obtain ⟨-, -, hlt, -⟩ := (inv_iff s).mp hinv
      omega
    exact (exec_idle_tick_refused s hc (Bool.eq_false_iff.mpr hbroken)).2

end Machine
end Sys2Proof
end

section
/-! PROOFS. Encoding: a control word is its three fields, so the decoder and the encoder agree on the fields each
operation reads (30_encoding.md R71 to R76); the words of statements and programs (R77 to R79); what an edge does with
the word it samples (R70, R72, R75); and what RECOMPUTES k does (R78). -/

namespace Sys2Proof

/-! ### A control word is its three fields (30_encoding.md R71) -/

section
variable (p q : Byte) (rst tick rst' tick' : Bool)

@[simp] theorem tickField_controlWord : tickField (controlWord p rst tick) = tick :=
  (BitVec.getLsbD_append (x := p)).trans (by cases rst <;> cases tick <;> rfl)

@[simp] theorem rstField_controlWord : rstField (controlWord p rst tick) = rst :=
  (BitVec.getLsbD_append (x := p)).trans (by cases rst <;> cases tick <;> rfl)

@[simp] theorem pselField_controlWord : pselField (controlWord p rst tick) = p :=
  BitVec.extractLsb'_append_eq_left

/-- The number of a word: `preset_sel` counts fours, `rst` twos and `tick` ones. -/
theorem controlWord_toNat : (controlWord p rst tick).toNat = 4 * p.toNat + 2 * rst.toNat + tick.toNat := by
  have hword : (controlWord p rst tick).toNat = p.toNat <<< 2 ||| (BitVec.ofBool rst ++ BitVec.ofBool tick).toNat :=
    BitVec.toNat_append p (BitVec.ofBool rst ++ BitVec.ofBool tick)
  rw [hword, ← Nat.shiftLeft_add_eq_or_of_lt (BitVec.isLt _), Nat.shiftLeft_eq]
  cases rst <;> cases tick <;> simp <;> omega

/-- Masking a word masks each field by itself. -/
theorem controlWord_and :
    controlWord p rst tick &&& controlWord q rst' tick' = controlWord (p &&& q) (rst && rst') (tick && tick') := by
  refine BitVec.and_append.trans ?_
  rw [BitVec.and_append, BitVec.ofBool_and_ofBool, BitVec.ofBool_and_ofBool]
  rfl

/-- Two words are the same word exactly when their fields are the same. -/
theorem controlWord_inj :
    controlWord p rst tick = controlWord q rst' tick' ↔ p = q ∧ rst = rst' ∧ tick = tick' := by
  refine ⟨fun h => ⟨?_, ?_, ?_⟩, fun ⟨hp, hr, ht⟩ => by rw [hp, hr, ht]⟩
  · simpa using congrArg pselField h
  · simpa using congrArg rstField h
  · simpa using congrArg tickField h

end

/-- Putting a word's fields together gives the word. -/
theorem controlWord_fields (cw : ControlWord) : controlWord (pselField cw) (rstField cw) (tickField cw) = cw := by
  have hpsel : (pselField cw).toNat = cw.toNat >>> 2 % 2 ^ 8 := BitVec.extractLsb'_toNat ..
  have hrst : (rstField cw).toNat = cw.toNat / 2 % 2 := Nat.toNat_testBit cw.toNat 1
  have htick : (tickField cw).toNat = cw.toNat / 1 % 2 := Nat.toNat_testBit cw.toNat 0
  apply BitVec.eq_of_toNat_eq
  rw [controlWord_toNat, hpsel, hrst, htick, Nat.shiftRight_eq_div_pow]
  omega

/-- Every word is made of its fields. -/
theorem exists_controlWord (cw : ControlWord) : ∃ p rst tick, cw = controlWord p rst tick :=
  ⟨_, _, _, (controlWord_fields cw).symm⟩

/-! ### The opcode map's masks, and the decoder, on the fields (30_encoding.md R73, R75) -/

section
variable (p : Byte) (rst tick : Bool)

/-- The mask of the rows IDLE and TICK keeps `rst` and `tick`. -/
theorem controlWord_and_0x003 : controlWord p rst tick &&& 0x003 = controlWord 0 rst tick :=
  (controlWord_and p 0 rst tick true true).trans (by simp)

/-- The mask of the row RESET keeps `rst`. -/
theorem controlWord_and_0x002 : controlWord p rst tick &&& 0x002 = controlWord 0 rst false :=
  (controlWord_and p 0 rst tick true false).trans (by simp)

/-- The bits RESET reads are `preset_sel` and `rst`. -/
theorem controlWord_and_0x3FE : controlWord p rst tick &&& 0x3FE = controlWord p rst false :=
  (controlWord_and p (BitVec.allOnes 8) rst tick true false).trans
    (by rw [BitVec.and_allOnes, Bool.and_true, Bool.and_false])

@[simp] theorem decodeControl_rst : decodeControl (controlWord p true tick) = .reset p := by
  simp [decodeControl]

@[simp] theorem decodeControl_tick : decodeControl (controlWord p false true) = .tick := by
  simp [decodeControl]

@[simp] theorem decodeControl_idle : decodeControl (controlWord p false false) = .idle := by
  simp [decodeControl]

end

/-- A word decodes to an operation exactly when it is the operation's encoding on the bits the operation reads. -/
theorem decodeControl_eq_iff (i : Instr) (cw : ControlWord) : decodeControl cw = i ↔ cw &&& readMask i = encode i := by
  obtain ⟨p, rst, tick, rfl⟩ := exists_controlWord cw
  cases i with
  | idle =>
    rw [readMask, encode, controlWord_and_0x003, controlWord_inj]
    cases rst <;> cases tick <;> simp
  | tick =>
    rw [readMask, encode, controlWord_and_0x003, controlWord_inj]
    cases rst <;> cases tick <;> simp
  | reset index =>
    rw [readMask, encode, controlWord_and_0x3FE, controlWord_inj]
    cases rst <;> cases tick <;> simp

@[simp] theorem decodeControl_encode (i : Instr) : decodeControl (encode i) = i := by
  cases i <;> simp [encode]

/-- A number of at most ten bits decodes as its word (30_encoding.md R75). -/
theorem decodeWord_of_lt (w : Nat) (h : w < 1024) : decodeWord w = .ok (decodeControl (BitVec.ofNat 10 w)) := if_pos h

/-- A control word's number decodes as the word. -/
theorem decodeWord_toNat (cw : ControlWord) : decodeWord cw.toNat = .ok (decodeControl cw) := by
  rw [decodeWord_of_lt _ cw.isLt, BitVec.ofNat_toNat, BitVec.setWidth_eq]

/-- A number that needs more than ten bits is refused (30_encoding.md R76; log 7). -/
theorem decodeWord_of_le (w : Nat) (h : 1024 ≤ w) : decodeWord w = .error .widerThanTenBits := if_neg (by omega)

/-- The table decoder reads the ten bits of a control word as the word. -/
theorem decodeTableWord_toNat (cw : ControlWord) : decodeTableWord 10 cw.toNat = some (decodeControl cw) := by
  rw [decodeTableWord, Nat.mod_eq_of_lt cw.isLt, decodeWord_toNat, Except.toOption]

/-- What the table decoder reads as an operation is a control word of that operation. -/
theorem decodeControl_of_decodeTableWord (nbits w : Nat) (i : Instr) (hw : w < 2 ^ nbits)
    (h : decodeTableWord nbits w = some i) : decodeControl (BitVec.ofNat 10 w) = i := by
  rw [decodeTableWord, Nat.mod_eq_of_lt hw] at h
  rcases Nat.lt_or_ge w 1024 with hlt | hge
  · simpa [decodeWord_of_lt w hlt, Except.toOption] using h
  · simp [decodeWord_of_le w hge, Except.toOption] at h

/-- Settles O4: the agreement on the bits read, the two decoders on a word's number, and the refusal of wider numbers. -/
theorem decodeAndEncodeAgree : Obligations.DecodeAndEncodeAgree := by
  refine ⟨decodeControl_eq_iff, fun i => ⟨decodeControl_encode i, ?_, ?_⟩, decodeWord_of_le⟩
  · rw [decodeWord_toNat, decodeControl_encode]
  · rw [decodeTableWord_toNat, decodeControl_encode]

/-- Settles O1: the rows look at `rst` and `tick` alone, so there are four words to look at. -/
theorem everyWordMatchesExactlyOneRow : Obligations.EveryWordMatchesExactlyOneRow := by
  intro cw
  obtain ⟨p, rst, tick, rfl⟩ := exists_controlWord cw
  simp only [opcodeTable, List.filter, OpcodeRow.selects, controlWord_and_0x003, controlWord_and_0x002]
  cases rst with
  | true =>
    rw [decodeControl_rst]
    cases tick <;> exact ⟨.inr (.inr ⟨⟨p, rfl⟩, by decide⟩), rfl⟩
  | false =>
    cases tick with
    | true => exact ⟨.inr (.inl ⟨decodeControl_tick p, by decide⟩), by rw [decodeControl_tick]; rfl⟩
    | false => exact ⟨.inl ⟨decodeControl_idle p, by decide⟩, by rw [decodeControl_idle]; rfl⟩

/-! ### The words of statements and programs (30_encoding.md R77 to R79) -/

/-- An accepted program's words are the encodings of its operations. -/
theorem assemble_of_wellFormed (b : Nat) (prog : List Stmt) (h : programWellFormed prog = true) :
    assemble b prog = .ok ((programOps b prog).map encode) := if_pos h

/-- A program with a number out of range is refused. -/
theorem assemble_of_illFormed (b : Nat) (prog : List Stmt) (h : programWellFormed prog = false) :
    assemble b prog = .error .outOfRange := if_neg (by simp [h])

/-- One program after another is accepted exactly when both are. -/
theorem programWellFormed_append (prog later : List Stmt) :
    programWellFormed (prog ++ later) = (programWellFormed prog && programWellFormed later) := List.all_append

/-- The operations of one program after another. -/
theorem programOps_append (b : Nat) (prog later : List Stmt) :
    programOps b (prog ++ later) = programOps b prog ++ programOps b later := List.flatMap_append

/-- The words of operations decode to the operations. -/
theorem map_decodeControl_encode (ops : List Instr) : (ops.map encode).map decodeControl = ops := by
  simp [Function.comp_def]

/-- Settles O7: the words are the encodings of the expanded operations. -/
theorem programWordsDecodeToTheProgram : Obligations.ProgramWordsDecodeToTheProgram := by
  intro b prog hprog
  refine ⟨_, assemble_of_wellFormed b prog hprog, map_decodeControl_encode _, fun later hlater => ?_⟩
  have hboth : programWellFormed (prog ++ later) = true := by simp [programWellFormed_append, hprog, hlater]
  refine ⟨_, assemble_of_wellFormed b later hlater, ?_⟩
  rw [assemble_of_wellFormed b _ hboth, programOps_append, List.map_append]

/-- A program of one accepted statement. -/
theorem assemble_singleton (b : Nat) (stmt : Stmt) (h : stmt.wellFormed = true) :
    assemble b [stmt] = .ok ((stmt.expand b).map encode) := by
  rw [assemble_of_wellFormed b [stmt] (by simpa [programWellFormed] using h), programOps, List.flatMap_singleton]

/-- A program of one statement out of range. -/
theorem assemble_singleton_illFormed (b : Nat) (stmt : Stmt) (h : stmt.wellFormed = false) :
    assemble b [stmt] = .error .outOfRange := assemble_of_illFormed b [stmt] (by simpa [programWellFormed] using h)

@[simp] theorem encode_idle : encode .idle = 0x000 := rfl
@[simp] theorem encode_tick : encode .tick = 0x001 := rfl

/-- RESET's word: the index from bit 2 on and `rst` (30_encoding.md R71, R77). -/
theorem encode_reset_ofNat (p : Nat) :
    encode (.reset (BitVec.ofNat 8 p)) = BitVec.ofNat 10 (p <<< 2 ||| 0x002) := by
  apply BitVec.eq_of_toNat_eq
  rw [encode, controlWord_toNat, ← Nat.shiftLeft_add_eq_or_of_lt (by decide : 2 < 2 ^ 2), Nat.shiftLeft_eq]
  simp only [BitVec.toNat_ofNat, Bool.toNat_true, Bool.toNat_false]
  omega

/-- Settles O6: each statement's bounds, then its expansion encoded. -/
theorem statementsExpandToTheirWords : Obligations.StatementsExpandToTheirWords := by
  refine ⟨fun b => ⟨rfl, rfl⟩, fun b p hp => ⟨?_, rfl⟩, fun b p hp => ?_, fun b n hn => ?_⟩
  · rw [assemble_singleton b (.reset p) (decide_eq_true hp), Stmt.expand, List.map_singleton, encode_reset_ofNat]
  · have hout : presetIndexFits p = false := decide_eq_false (by omega)
    exact ⟨assemble_singleton_illFormed b (.reset p) hout, assemble_singleton_illFormed b (.poweron p) hout⟩
  · have hfits : countFits n = true := decide_eq_true hn
    refine ⟨?_, ?_, ?_, ?_⟩
    · simp [assemble_singleton b (.ticks n) hfits, Stmt.expand]
    · simp [assemble_singleton b (.idles n) hfits, Stmt.expand]
    · simp [assemble_singleton b (.tickwait n) hfits, Stmt.expand]
    · simp [assemble_singleton b (.recomputes n) hfits, Stmt.expand]

/-- In a line without a semicolon every character is another one. -/
theorem bne_semicolon (line : List Char) (h : ';' ∉ line) : ∀ c ∈ line, (c != ';') = true :=
  fun _ hc => bne_iff_ne.mpr fun he => h (he ▸ hc)

/-- A line's statement ends before its first semicolon. -/
theorem takeWhile_append_semicolon (line comment : List Char) (h : ';' ∉ line) :
    (line ++ ';' :: comment).takeWhile (· != ';') = line := by
  rw [List.takeWhile_append_of_pos (bne_semicolon line h), List.takeWhile_cons_of_neg (by decide), List.append_nil]

/-- Settles O8: with and without the comment, the same characters are read. -/
theorem commentsHaveNoMeaning : Obligations.CommentsHaveNoMeaning := by
  intro line comment h
  rw [readLine, readLine, takeWhile_append_semicolon line comment h,
    List.takeWhile_eq_self_iff.mpr (bne_semicolon line h)]

namespace Machine

/-! ### What an edge does with the word it samples (30_encoding.md R70, R72, R75) -/

/-- An edge performs the sampled word's operation, and the pins move on to the host's next word. -/
theorem step_of_decode (s : State) (i : Instr) (h : decodeControl s.pins = i) :
    step s = exec i { s with pins := s.stimulus.headD s.pins, stimulus := s.stimulus.tail } := by
  rw [step, h, advancePins_eq]

/-- Words that decode alike step alike, when the host drives a next word. -/
theorem step_congr_decode (s : State) (cw cw' next : ControlWord) (rest : List ControlWord)
    (h : decodeControl cw = decodeControl cw') :
    step { s with pins := cw, stimulus := next :: rest } = step { s with pins := cw', stimulus := next :: rest } :=
  congrArg (exec · { s with pins := next, stimulus := rest }) h

/-- A number that fits its `nbits` is placed on the pins as it is. -/
theorem withFetchWord_of_lt (s : State) (nbits w : Nat) (h : w < 2 ^ nbits) :
    s.withFetchWord nbits w = s.drive (BitVec.ofNat 10 w) := by
  rw [State.withFetchWord, Nat.mod_eq_of_lt h]

/-- Settles O9: a step is its sampled word's operation, and a placed word is the one sampled. -/
theorem edgeRunsTheSampledWord : Obligations.EdgeRunsTheSampledWord := by
  refine ⟨step_of_decode, fun s nbits w i hw hi => ?_⟩
  rw [withFetchWord_of_lt s nbits w hw]
  exact step_of_decode (s.drive (BitVec.ofNat 10 w)) i (decodeControl_of_decodeTableWord nbits w i hw hi)

/-- The index is compared with P as a wider number, and P fits in it (30_encoding.md R72). -/
theorem setWidth_lt_presetCount (c : Config) (hc : c.admitted = true) (p : Byte) :
    p.setWidth 64 < BitVec.ofNat 64 c.presetCount ↔ p.toNat < c.presetCount := by
  obtain ⟨-, hle, -⟩ := (admitted_iff c).mp hc
  rw [BitVec.lt_def, BitVec.toNat_setWidth_of_le (by decide), BitVec.toNat_ofNat, Nat.mod_eq_of_lt (by omega)]

/-- Without `rst` the operand has no part in the decoding (30_encoding.md R72). -/
theorem decodeControl_ignores_psel (p q : Byte) (tick : Bool) :
    decodeControl (controlWord p false tick) = decodeControl (controlWord q false tick) := by
  cases tick <;> simp

/-- Settles O2: RESET's operand is the word's field, and words without `rst` decode alike. -/
theorem operandIsReadByResetAlone : Obligations.OperandIsReadByResetAlone := by
  refine ⟨fun cw hrst => if_pos hrst, fun s p hc => ?_, decodeControl_ignores_psel, fun s p q tick next rest => ?_⟩
  · exact ⟨_, (exec_reset_next p s _).mpr ⟨hc, rfl⟩, (if_congr (setWidth_lt_presetCount s.cfg hc p) rfl rfl).symm⟩
  · exact step_congr_decode s _ _ next rest (decodeControl_ignores_psel p q tick)

/-- Settles O3: with `rst` the decoder gives RESET whatever `tick` is. -/
theorem tickWithResetIsDiscarded : Obligations.TickWithResetIsDiscarded := by
  refine ⟨decodeWord_of_lt, fun p => decodeControl_rst p true, fun s p next rest => ?_⟩
  exact step_congr_decode s _ _ next rest ((decodeControl_rst p true).trans (decodeControl_rst p false).symm)

/-! ### Runs of TICKs over whole intervals (41_phase_counter.md R127) -/

/-- A ready state stays ready over a run that goes on. -/
theorem runOps_next_ready (ops : List Instr) (s t : State) (hs : s.ready) (h : runOps ops s = .next t) : t.ready := by
  induction ops generalizing s with
  | nil => cases h; exact hs
  | cons i rest ih =>
    obtain ⟨u, hexec⟩ := ready_exec s hs i
    exact ih u (exec_next_ready i s u hexec) (runOps_cons_next i rest s u hexec ▸ h)

/-- The next phase depends on the phase and the phase step alone (41_phase_counter.md R124). -/
theorem nextPhase_congr (s t : State) (hsys : s.sys = t.sys) (hpstep : s.pstep = t.pstep) :
    nextPhase s = nextPhase t := by
  rw [nextPhase, nextPhase, wrap, wrap, nextPhaseStep, nextPhaseStep, hsys, hpstep]

/-- Before an interval's last TICK, a TICK counts (41_phase_counter.md R121). -/
theorem exec_tick_count (s : State) (hs : s.ready) (h : s.tcnt + 1 < s.ival) : exec .tick s = .next (countEffect s) :=
  (exec_tick_next s _).mpr ⟨hs, if_neg (mt (ready_recompute s hs).mp h.ne)⟩

/-- An interval's last TICK recomputes (41_phase_counter.md R121). -/
theorem exec_tick_recompute (s : State) (hs : s.ready) (h : s.tcnt + 1 = s.ival) :
    ∃ m, exec .tick s = .next (recomputeEffect m s) := by
  obtain ⟨m, hm⟩ := ready_preset s hs
  exact ⟨m, (exec_tick_next s _).mpr ⟨hs, by simp [tickEffect, (ready_recompute s hs).mpr h, hm]⟩⟩

/-- TICKs that do not reach the end of the interval change TCNT alone among the engine registers. -/
theorem runOps_ticks_count (n : Nat) (s : State) (hs : s.ready) (h : s.tcnt + n < s.ival) :
    ∃ t, runOps (List.replicate n .tick) s = .next t ∧ t.cfg = s.cfg ∧
      t.engine = { s.engine with tcnt := s.tcnt + n } := by
  induction n generalizing s with
  | zero => exact ⟨s, rfl, rfl, rfl⟩
  | succ n ih =>
    have hexec : exec .tick s = .next (countEffect s) := exec_tick_count s hs (by omega)
    have htcnt : (countEffect s).tcnt = s.tcnt + 1 := (ready_nextTick s hs).1
    have hroom : (countEffect s).tcnt + n < (countEffect s).ival := by rw [htcnt, countEffect_ival]; omega
    obtain ⟨t, hrun, hcfg, hengine⟩ := ih (countEffect s) (exec_next_ready _ _ _ hexec) hroom
    refine ⟨t, (runOps_cons_next _ _ _ _ hexec).trans hrun, hcfg, ?_⟩
    rw [hengine, htcnt, countEffect_engine, Nat.add_right_comm, Nat.add_assoc]

/-- From TCNT = 0, as many TICKs as the interval has make one recomputation, at the last of them. -/
theorem runOps_ticks_interval (s : State) (hs : s.ready) (h0 : s.tcnt = 0) :
    ∃ t, runOps (List.replicate s.ival .tick) s = .next t ∧ t.ready ∧ t.cfg = s.cfg ∧ t.tcnt = 0 ∧
      t.pstep = s.pstep + 1 ∧ t.sys = nextPhase s := by
  obtain ⟨-, hlt⟩ := ready_nextTick s hs
  obtain ⟨n, hn⟩ : ∃ n, s.ival = n + 1 := Nat.exists_eq_succ_of_ne_zero (by omega)
  obtain ⟨u, hrun, hcfg, hengine⟩ := runOps_ticks_count n s hs (by omega)
  have hready : u.ready := runOps_next_ready _ s u hs hrun
  have hsys : u.sys = s.sys := congrArg Engine.sys hengine
  have hpstep : u.pstep = s.pstep := congrArg Engine.pstep hengine
  have hival : u.ival = s.ival := congrArg Engine.ival hengine
  have htcnt : u.tcnt = s.tcnt + n := congrArg Engine.tcnt hengine
  obtain ⟨m, hexec⟩ := exec_tick_recompute u hready (by omega)
  refine ⟨recomputeEffect m u, ?_, exec_next_ready _ _ _ hexec, hcfg, rfl, ?_, ?_⟩
  · rw [hn, List.replicate_succ', runOps_append _ _ s u hrun, runOps_cons_next _ _ _ _ hexec, runOps]
  · rw [recomputeEffect_pstep, nextPhaseStep, hpstep]
  · rw [recomputeEffect_sys, nextPhase_congr u s hsys hpstep]

/-- Short of the end of a Diastole, k intervals of it make k recomputations. -/
theorem runOps_ticks_diastole (k : Nat) (s : State) (hs : s.ready) (hsys : s.sys = .diastole) (h0 : s.tcnt = 0)
    (hk : s.pstep.toNat + k ≤ 255) :
    ∃ t, runOps (List.replicate (k * s.cfg.modBase) .tick) s = .next t ∧ t.pstep.toNat = s.pstep.toNat + k ∧
      t.sys = .diastole ∧ t.tcnt = 0 := by
  induction k generalizing s with
  | zero => exact ⟨s, by simp [runOps], rfl, hsys, h0⟩
  | succ k ih =>
    have hival : s.ival = s.cfg.modBase := by
      obtain ⟨hinv1, -⟩ := (inv_iff s).mp hs.2.2
      rw [hinv1, hsys, interval]
    obtain ⟨u, hrun, hready, hcfg, hu0, hpstep, hphase⟩ := runOps_ticks_interval s hs h0
    have hne : s.pstep ≠ 255 := by bv_omega
    have hnat : u.pstep.toNat = s.pstep.toNat + 1 := by rw [hpstep]; bv_omega
    have husys : u.sys = .diastole := by rw [hphase, nextPhase_of_pstep_ne s hne, hsys]
    obtain ⟨t, hrest, htpstep, htsys, ht0⟩ := ih u hready husys hu0 (by omega)
    have hsplit : List.replicate ((k + 1) * s.cfg.modBase) Instr.tick =
        List.replicate s.ival .tick ++ List.replicate (k * u.cfg.modBase) .tick := by
      rw [hival, hcfg, ← List.replicate_add, Nat.succ_mul, Nat.add_comm]
    exact ⟨t, by rw [hsplit, runOps_append _ _ s u hrun, hrest], by omega, htsys, ht0⟩

/-- Settles O35: RECOMPUTES k is k intervals of TICKs. -/
theorem recomputesStatementRecomputes : Obligations.RecomputesStatementRecomputes :=
  fun s k hs hsys h0 hk => runOps_ticks_diastole k s hs hsys h0 hk

end Machine
end Sys2Proof
end

section
/-! PROOFS. Operations: the three outcomes of an operation, the register transfers of RESET, IDLE and TICK written out,
and the independence of the engine from IDLE edges (40_operations.md R100 to R103, R106). -/

namespace Sys2Proof.Machine

/-! ### Which operations a state admits (40_operations.md R100) -/

/-- IDLE and TICK are refused from a state in which they are not admitted: unreset, or with an invariant broken. -/
theorem exec_idle_tick_notAdmitted (s : State) (hc : s.cfg.admitted = true) (h : s.admitsAll = false) :
    exec .idle s = .refused .illegalState ∧ exec .tick s = .refused .illegalState :=
  ⟨operate_notAdmitted (fun u => some (idleEffect u)) s hc h, operate_notAdmitted tickEffect s hc h⟩

/-- Before the first RESET, IDLE and TICK are not admitted (10_state.md R39). -/
theorem admitsAll_of_unreset (s : State) (h : s.life = .unreset) : s.admitsAll = false := by
  simp [State.admitsAll, h]

/-- RESET goes on in every admitted configuration (40_operations.md R101 corner case e; log 15). -/
theorem exec_reset (p : Byte) (s : State) (hc : s.cfg.admitted = true) :
    exec (.reset p) s = .next (resetEffect p s) :=
  (exec_reset_next p s _).mpr ⟨hc, rfl⟩

/-- Settles O12: an unreset state and one that breaks an invariant refuse IDLE and TICK, a ready state nothing. -/
theorem operationHasItsThreeOutcomes : Obligations.OperationHasItsThreeOutcomes := by
  refine fun s hc => ⟨fun hunreset => ?_, fun _ hbroken => ?_, fun hlife hival htcnt hpsel hpcnt => ?_, fun p => ?_⟩
  · exact exec_idle_tick_notAdmitted s hc (admitsAll_of_unreset s hunreset)
  · exact exec_idle_tick_refused s hc (Bool.eq_false_iff.mpr (mt (inv_iff_ite s).mp hbroken))
  · exact ready_exec s ⟨hc, hlife, (inv_iff_ite s).mpr ⟨hival, htcnt, hpsel, hpcnt⟩⟩
  · exact ⟨_, exec_reset p s hc⟩

/-! ### RESET and IDLE, with the words that select them (40_operations.md R101, R102) -/

/-- A word with `rst` = 1 selects RESET with its own index, whatever `tick` is (30_encoding.md R73, R75). -/
theorem decodeControl_of_rst (cw : ControlWord) (h : cw &&& 0x002 = 0x002) :
    decodeControl cw = .reset (pselField cw) := by
  obtain ⟨p, rst, tick, rfl⟩ := exists_controlWord cw
  have hrst : controlWord 0 rst false = controlWord 0 true false := (controlWord_and_0x002 p rst tick).symm.trans h
  obtain ⟨-, rfl, -⟩ := (controlWord_inj _ _ _ _ _ _).mp hrst
  rw [decodeControl_rst, pselField_controlWord]

/-- Settles O15: the transfers of RESET are a whole state, and `rst` alone selects it. -/
theorem resetWritesEveryRegister : Obligations.ResetWritesEveryRegister :=
  ⟨fun s p hc => exec_reset p s hc, decodeControl_of_rst⟩

/-- Settles O20: IDLE goes on from a ready state, and `rst` = `tick` = 0 selects it. -/
theorem idleStepsOnlyThePwmStage : Obligations.IdleStepsOnlyThePwmStage :=
  ⟨fun s hs => (exec_idle_next s _).mpr ⟨hs, rfl⟩, fun cw => (decodeControl_eq_iff .idle cw).mpr⟩

/-! ### TICK, with its conditions and operands written out (40_operations.md R103) -/

/-- The two-state machine of the phases (41_phase_counter.md R124). -/
theorem toggle_eq_ite (ph : Phase) : ph.toggle = if ph = .diastole then .systole else .diastole := by
  cases ph <;> rfl

/-- `sys1`, with the toggle written out (41_phase_counter.md R124). -/
theorem nextPhase_eq_ite (s : State) :
    nextPhase s =
      if nextPhaseStep s = 0 then (if s.sys = .diastole then .systole else .diastole) else s.sys := by
  simp [nextPhase, wrap, toggle_eq_ite]

/-- IVAL after a recomputation, with the interval written out (41_phase_counter.md R125). -/
theorem nextInterval_eq_ite (s : State) :
    nextInterval s =
      if nextPhaseStep s = 0 then (if nextPhase s = .systole then 2 * s.cfg.modBase else s.cfg.modBase)
      else s.ival := by
  simp [nextInterval, wrap, interval_eq_ite]

/-- The address of the lookup, by the lookup order (41_phase_counter.md R126). -/
theorem lutAddress_eq_ite (s : State) :
    lutAddress s = if s.cfg.order = .lookupFirst then s.pstep else nextPhaseStep s := by
  cases h : s.cfg.order <;> simp [lutAddress, h]

/-- The phase of the lookup, by the lookup order (41_phase_counter.md R126). -/
theorem lookupPhase_eq_ite (s : State) :
    lookupPhase s = if s.cfg.order = .lookupFirst then s.sys else nextPhase s := by
  cases h : s.cfg.order <;> simp [lookupPhase, h]

/-- A TICK whose next count is not IVAL counts. -/
theorem exec_tick_of_not_recompute (s : State) (hs : s.ready) (hr : ¬ recompute s = true) :
    exec .tick s = .next (countEffect s) :=
  (exec_tick_next s _).mpr ⟨hs, if_neg hr⟩

/-- A TICK whose next count is IVAL recomputes with the preset's numerator (20_memory.md R53). -/
theorem exec_tick_of_recompute (s : State) (hs : s.ready) (hr : recompute s = true) :
    ∃ m, presetNumerator s = some m ∧ exec .tick s = .next (recomputeEffect m s) := by
  obtain ⟨m, hm⟩ := ready_preset s hs
  exact ⟨m, hm, (exec_tick_next s _).mpr ⟨hs, by simp [tickEffect, hr, hm]⟩⟩

/-- Settles O21: the two cases of TICK, the second with its operands written out, and the words that select it. -/
theorem tickFollowsItsTransfers : Obligations.TickFollowsItsTransfers := by
  refine ⟨fun s hs => ⟨fun hne => ?_, fun heq => ?_⟩, fun cw => (decodeControl_eq_iff .tick cw).mpr⟩
  · exact exec_tick_of_not_recompute s hs (mt (recompute_iff s).mp hne)
  · obtain ⟨m, hm, hexec⟩ := exec_tick_of_recompute s hs ((recompute_iff s).mpr heq)
    refine ⟨m, hm, hexec.trans ?_⟩
    rw [recomputeEffect, lutSample, lutAddress_eq_ite, lookupPhase_eq_ite, nextInterval_eq_ite, nextPhase_eq_ite]
    rfl

/-! ### The engine reads nothing but the configuration and itself (40_operations.md R106) -/

section
variable (s u : State) (hcfg : s.cfg = u.cfg) (hengine : s.engine = u.engine)
include hcfg hengine

/-- Whether a TICK recomputes depends on the configuration and the engine (41_phase_counter.md R121). -/
theorem recompute_congr : recompute s = recompute u := by
  obtain ⟨-, -, hival, htcnt, -, -⟩ := Engine.mk.inj hengine
  rw [recompute, recompute, nextTick, nextTick, hcfg, hival, htcnt]

/-- A counting TICK's engine depends on the configuration and the engine. -/
theorem countEffect_engine_congr : (countEffect s).engine = (countEffect u).engine := by
  obtain ⟨-, -, -, htcnt, -, -⟩ := Engine.mk.inj hengine
  rw [countEffect_engine, countEffect_engine, nextTick, nextTick, hcfg, hengine, htcnt]

/-- The preset read of a recomputation depends on the configuration and the engine. -/
theorem presetNumerator_congr : presetNumerator s = presetNumerator u := by
  obtain ⟨-, -, -, -, -, hpsel⟩ := Engine.mk.inj hengine
  rw [presetNumerator, presetNumerator, hcfg, hpsel]

/-- A recomputation TICK's engine depends on the configuration and the engine. -/
theorem recomputeEffect_engine_congr (m : Nat) : (recomputeEffect m s).engine = (recomputeEffect m u).engine := by
  obtain ⟨hsys, hpstep, hival, -, -, hpsel⟩ := Engine.mk.inj hengine
  have hstep : nextPhaseStep s = nextPhaseStep u := congrArg (· + 1) hpstep
  have hphase : nextPhase s = nextPhase u := nextPhase_congr s u hsys hpstep
  simp only [State.engine, recomputeEffect, lutSample, lutAddress_eq_ite, lookupPhase_eq_ite, nextInterval_eq_ite,
    hcfg, hsys, hpstep, hival, hpsel, hstep, hphase]

/-- TICK's transfers of the engine depend on the configuration and the engine (40_operations.md R103). -/
theorem tickEffect_engine_congr : (tickEffect s).map State.engine = (tickEffect u).map State.engine := by
  rw [tickEffect, tickEffect, recompute_congr s u hcfg hengine, presetNumerator_congr s u hcfg hengine]
  cases recompute u with
  | false => exact congrArg some (countEffect_engine_congr s u hcfg hengine)
  | true =>
    cases presetNumerator u with
    | none => rfl
    | some m => exact congrArg some (recomputeEffect_engine_congr s u hcfg hengine m)

/-- Operations that go on from states with the same configuration and engine end in the same engine. -/
theorem exec_engine_congr (i : Instr) (s' u' : State) (hs : exec i s = .next s') (hu : exec i u = .next u') :
    s'.engine = u'.engine := by
  cases i with
  | idle =>
    obtain ⟨-, rfl⟩ := (exec_idle_next s s').mp hs
    obtain ⟨-, rfl⟩ := (exec_idle_next u u').mp hu
    exact hengine
  | tick =>
    obtain ⟨-, hs⟩ := (exec_tick_next s s').mp hs
    obtain ⟨-, hu⟩ := (exec_tick_next u u').mp hu
    simpa [hs, hu] using tickEffect_engine_congr s u hcfg hengine
  | reset p =>
    obtain ⟨-, rfl⟩ := (exec_reset_next p s s').mp hs
    obtain ⟨-, rfl⟩ := (exec_reset_next p u u').mp hu
    simp [State.engine, hcfg]

end

/-- From states with the same configuration and engine, a session and its TICKs alone end in the same engine. -/
theorem runOps_ticks_engine (ops : List Instr) (s u : State) (hs : s.ready) (hu : u.ready) (hcfg : s.cfg = u.cfg)
    (hengine : s.engine = u.engine) (hops : sessionOps ops = true) :
    ∃ t v, runOps ops s = .next t ∧ runOps (List.replicate (tickCount ops) .tick) u = .next v ∧
      t.engine = v.engine := by
  induction ops generalizing s u with
  | nil => exact ⟨s, u, rfl, rfl, hengine⟩
  | cons i rest ih =>
    obtain ⟨hsession, hrest⟩ := (sessionOps_cons i rest).mp hops
    obtain ⟨s', hs'⟩ := ready_exec s hs i
    have hready := exec_next_ready i s s' hs'
    obtain ⟨hcfgs, -, -⟩ := exec_keeps_cfg_and_inputs i s s' hs'
    rw [runOps_cons_next i rest s s' hs']
    rcases hsession with rfl | rfl
    · obtain ⟨-, rfl⟩ := (exec_idle_next s s').mp hs'
      rw [tickCount_idle]
      exact ih (idleEffect s) u hready hu hcfg hengine hrest
    · obtain ⟨u', hu'⟩ := ready_exec u hu .tick
      obtain ⟨hcfgu, -, -⟩ := exec_keeps_cfg_and_inputs .tick u u' hu'
      rw [tickCount_tick, List.replicate_succ, runOps_cons_next _ _ u u' hu']
      exact ih s' u' hready (exec_next_ready _ u u' hu') (hcfgs.trans (hcfg.trans hcfgu.symm))
        (exec_engine_congr s u hcfg hengine .tick s' u' hs' hu') hrest

/-- Settles O34: the runs with and without the IDLEs start from one state. -/
theorem idleEdgesDoNotChangeTheEngine : Obligations.IdleEdgesDoNotChangeTheEngine :=
  fun s ops hs hops => runOps_ticks_engine ops s s hs hs rfl rfl hops

end Sys2Proof.Machine
end

section
/-! PROOFS. Phase counter: a run without RESET is followed by the number of its recomputations and the TICKs since the
last of them, from which the spacing of recomputations, the phases, the closed form, its period and the duty sequence
follow (41_phase_counter.md R124 to R132). -/

namespace Sys2Proof.Machine

/-! ### The phase toggle (41_phase_counter.md R124) -/

theorem toggle_ne (ph : Phase) : ph.toggle ≠ ph := by
  cases ph <;> nofun

/-- At the last phase step the phase inverts (41_phase_counter.md R124). -/
theorem nextPhase_of_pstep_eq (s : State) (h : s.pstep = 255) : nextPhase s = s.sys.toggle :=
  if_pos ((wrap_iff s).mpr h)

/-- Settles O23: only a recomputation writes SYS, and it does so by `nextPhase`. -/
theorem phaseTogglesExactlyAtTheWrap : Obligations.PhaseTogglesExactlyAtTheWrap := by
  refine ⟨fun i s t h hnoReset hsys => ?_, fun s hs hr => ?_⟩
  · rcases exec_next_cases i s t h with ⟨-, -, rfl⟩ | ⟨-, -, -, rfl⟩ | ⟨rfl, hs, hr, m, -, rfl⟩ | ⟨p, rfl, -, -⟩
    · exact absurd rfl hsys
    · exact absurd rfl hsys
    · have hpstep : s.pstep = 255 := not_not.mp (mt (nextPhase_of_pstep_ne s) hsys)
      obtain ⟨hival, -⟩ := (inv_iff s).mp hs.2.2
      refine ⟨rfl, (recompute_iff s).mp hr, hpstep, ?_, rfl, ?_⟩
      · rw [recomputeEffect_pstep, nextPhaseStep, hpstep]
        rfl
      · exact (nextInterval_eq_interval s hival).trans (interval_eq_ite s.cfg (nextPhase s))
    · exact absurd rfl (hnoReset p)
  · obtain ⟨m, -, hexec⟩ := exec_tick_of_recompute s hs ((recompute_iff s).mpr hr)
    refine ⟨_, hexec, fun heq => ?_, nextPhase_of_pstep_ne s⟩
    rw [recomputeEffect_sys, nextPhase_of_pstep_eq s heq]
    exact toggle_ne s.sys

/-! ### Numbering phases and recomputations from a RESET

Recomputation `r` ends phase step `r - 1` and starts phase step `r`; phase step `r` stands in phase `r / 256`, and even
phases are Diastoles. -/

theorem phaseOf_succ (x : Nat) : phaseOf (x + 1) = (phaseOf x).toggle := by
  rcases Nat.mod_two_eq_zero_or_one x with h | h <;> simp [phaseOf, Phase.toggle, Nat.add_mod, h]

theorem phaseOf_add_two (x : Nat) : phaseOf (x + 2) = phaseOf x := by
  simp [phaseOf]

/-- Each of the two phases has a number. -/
theorem exists_phaseOf (ph : Phase) : ∃ x, phaseOf x = ph := by
  cases ph
  · exact ⟨0, rfl⟩
  · exact ⟨1, rfl⟩

/-- Phase steps 0 to 255 of a cycle are its Diastole (41_phase_counter.md R128). -/
theorem phaseOf_diastole (q j : Nat) (hj : j < 256) : phaseOf ((512 * q + j) / 256) = .diastole :=
  if_pos (by omega)

/-- Phase steps 256 to 511 of a cycle are its Systole (41_phase_counter.md R128). -/
theorem phaseOf_systole (q j : Nat) (hj : j < 256) : phaseOf ((512 * q + 256 + j) / 256) = .systole :=
  if_neg (by omega)

/-- The number of TICKs from a RESET to the r-th recomputation after it: phase step r lasts its phase's interval
(41_phase_counter.md R127). -/
def recomputeTick (c : Config) : Nat → Nat
  | 0 => 0
  | r + 1 => recomputeTick c r + interval c (phaseOf (r / 256))

section
variable (c : Config)

@[simp] theorem recomputeTick_zero : recomputeTick c 0 = 0 := rfl

theorem recomputeTick_succ (r : Nat) :
    recomputeTick c (r + 1) = recomputeTick c r + interval c (phaseOf (r / 256)) := rfl

/-- Within a phase, recomputations are one interval of the phase apart (41_phase_counter.md R127). -/
theorem recomputeTick_in_phase (x j : Nat) (hj : j ≤ 256) :
    recomputeTick c (256 * x + j) = recomputeTick c (256 * x) + j * interval c (phaseOf x) := by
  induction j with
  | zero => simp
  | succ j ih =>
    have hphase : (256 * x + j) / 256 = x := by omega
    rw [← Nat.add_assoc, recomputeTick_succ, ih (by omega), hphase, Nat.succ_mul j, Nat.add_assoc]

/-- 512 recomputations, a Diastole and a Systole, take one cycle (41_phase_counter.md R128). -/
theorem recomputeTick_add_cycle (r : Nat) : recomputeTick c (r + 512) = recomputeTick c r + cycleTicks c := by
  induction r with
  | zero =>
    have hdiastole : recomputeTick c 256 = 256 * c.modBase := by
      simpa [phaseOf, interval] using recomputeTick_in_phase c 0 256 le_rfl
    have hsystole : recomputeTick c 512 = recomputeTick c 256 + 256 * (2 * c.modBase) :=
      recomputeTick_in_phase c 1 256 le_rfl
    rw [Nat.zero_add, hsystole, hdiastole, recomputeTick_zero, cycleTicks]
    omega
  | succ r ih =>
    have hphase : (r + 512) / 256 = r / 256 + 2 := by omega
    rw [Nat.add_right_comm, recomputeTick_succ, ih, hphase, phaseOf_add_two, recomputeTick_succ, Nat.add_right_comm]

/-- Cycle q starts q cycles after the RESET (41_phase_counter.md R128). -/
theorem recomputeTick_cycle (q : Nat) : recomputeTick c (512 * q) = cycleTicks c * q := by
  induction q with
  | zero => rfl
  | succ q ih => rw [Nat.mul_succ, recomputeTick_add_cycle, ih, Nat.mul_succ]

/-- The recomputations of cycle q up to the end of its Diastole (41_phase_counter.md R128). -/
theorem recomputeTick_diastole (q j : Nat) (hj : j ≤ 256) :
    recomputeTick c (512 * q + j) = cycleTicks c * q + j * c.modBase := by
  have hphase : phaseOf (2 * q) = .diastole := if_pos (by omega)
  have hstart : 512 * q = 256 * (2 * q) := by omega
  rw [← recomputeTick_cycle, hstart, recomputeTick_in_phase c _ j hj, hphase, interval]

/-- The recomputations of cycle q from the start of its Systole on (41_phase_counter.md R128). -/
theorem recomputeTick_systole (q j : Nat) (hj : j ≤ 256) :
    recomputeTick c (512 * q + 256 + j) = cycleTicks c * q + 256 * c.modBase + j * (2 * c.modBase) := by
  have hphase : phaseOf (2 * q + 1) = .systole := if_neg (by omega)
  have hstart : 512 * q + 256 = 256 * (2 * q + 1) := by omega
  rw [← recomputeTick_diastole c q 256 le_rfl, hstart, recomputeTick_in_phase c _ j hj, hphase, interval]

variable (hc : c.admitted = true)
include hc

theorem recomputeTick_strictMono : StrictMono (recomputeTick c) :=
  strictMono_nat_of_lt_succ fun r => Nat.lt_add_of_pos_right (interval_pos c hc (phaseOf (r / 256)))

/-- A TICK is in the interval after one recomputation only. -/
theorem recomputation_unique (r r' k k' : Nat) (hk : k < interval c (phaseOf (r / 256)))
    (hk' : k' < interval c (phaseOf (r' / 256))) (h : recomputeTick c r + k = recomputeTick c r' + k') :
    r = r' ∧ k = k' := by
  have hr : recomputeTick c r < recomputeTick c (r' + 1) := by rw [recomputeTick_succ]; omega
  have hr' : recomputeTick c r' < recomputeTick c (r + 1) := by rw [recomputeTick_succ]; omega
  have hle := (recomputeTick_strictMono c hc).lt_iff_lt.mp hr
  have hle' := (recomputeTick_strictMono c hc).lt_iff_lt.mp hr'
  obtain rfl : r = r' := by omega
  exact ⟨rfl, by omega⟩

end

/-! ### The engine k TICKs after the r-th recomputation (41_phase_counter.md R130) -/

/-- The engine registers with phase step r since a RESET, k TICKs of its interval gone by and the duty value `out`. -/
def engineAt (c : Config) (psel : Byte) (r k : Nat) (out : Byte) : Engine where
  sys := phaseOf (r / 256)
  pstep := BitVec.ofNat 8 r
  ival := interval c (phaseOf (r / 256))
  tcnt := k
  out := out
  psel := psel

/-- The state is ready, in configuration c, and k TICKs after recomputation r. -/
structure StandsAt (c : Config) (psel : Byte) (r k : Nat) (out : Byte) (s : State) : Prop where
  ready : s.ready
  cfg : s.cfg = c
  engine : s.engine = engineAt c psel r k out

/-- INV1 makes the interval the phase's (10_state.md R33), so phase and phase step say where a ready state stands. -/
theorem standsAt_of_ready (s : State) (hs : s.ready) (r : Nat) (hsys : s.sys = phaseOf (r / 256))
    (hpstep : s.pstep = BitVec.ofNat 8 r) : StandsAt s.cfg s.psel r s.tcnt s.out s := by
  obtain ⟨hival, -⟩ := (inv_iff s).mp hs.2.2
  exact ⟨hs, rfl, by rw [State.engine, engineAt, hival, hsys, hpstep]⟩

/-- RESET puts the engine at the start of the numbering (40_operations.md R101). -/
theorem standsAt_reset (s : State) (p : Byte) (hc : s.cfg.admitted = true) :
    StandsAt s.cfg (resolvePreset s.cfg p) 0 0 0 (resetEffect p s) :=
  ⟨exec_next_ready _ _ _ (exec_reset p s hc), rfl, rfl⟩

section
variable {c : Config} {psel : Byte} {r k : Nat} {out : Byte} {s : State} (h : StandsAt c psel r k out s)
include h

/-- IDLE leaves the engine where it stands (40_operations.md R102). -/
theorem StandsAt.idle : ∃ t, exec .idle s = .next t ∧ StandsAt c psel r k out t := by
  have hexec : exec .idle s = .next (idleEffect s) := (exec_idle_next s _).mpr ⟨h.ready, rfl⟩
  exact ⟨_, hexec, exec_next_ready _ _ _ hexec, h.cfg, h.engine⟩

/-- A TICK counts on within the interval (41_phase_counter.md R121). -/
theorem StandsAt.tick_counts (hk : k + 1 < interval c (phaseOf (r / 256))) :
    ∃ t, exec .tick s = .next t ∧ StandsAt c psel r (k + 1) out t := by
  obtain ⟨-, -, hival, htcnt, -, -⟩ := Engine.mk.inj h.engine
  have hexec : exec .tick s = .next (countEffect s) :=
    exec_tick_count s h.ready (by rw [hival, htcnt]; exact hk)
  refine ⟨_, hexec, exec_next_ready _ _ _ hexec, h.cfg, ?_⟩
  rw [countEffect_engine, h.engine, (ready_nextTick s h.ready).1, htcnt, engineAt, engineAt]

/-- The next phase step is that of the next recomputation (41_phase_counter.md R122). -/
theorem StandsAt.nextPhaseStep_eq : nextPhaseStep s = BitVec.ofNat 8 (r + 1) := by
  obtain ⟨-, hpstep, -⟩ := Engine.mk.inj h.engine
  rw [nextPhaseStep, hpstep]
  exact (BitVec.ofNat_add r 1).symm

/-- The next phase is that of the next recomputation (41_phase_counter.md R124). -/
theorem StandsAt.nextPhase_eq : nextPhase s = phaseOf ((r + 1) / 256) := by
  obtain ⟨hsys, hpstep, -⟩ := Engine.mk.inj h.engine
  by_cases hwrap : r % 256 = 255
  · have hlast : s.pstep = 255 := by rw [hpstep]; apply BitVec.eq_of_toNat_eq; simpa using hwrap
    have hphase : (r + 1) / 256 = r / 256 + 1 := by omega
    rw [nextPhase_of_pstep_eq s hlast, hsys, hphase, phaseOf_succ]
  · have hnotLast : s.pstep ≠ 255 := fun he => hwrap (by simpa [hpstep] using congrArg BitVec.toNat he)
    have hphase : (r + 1) / 256 = r / 256 := by omega
    rw [nextPhase_of_pstep_ne s hnotLast, hsys, hphase]

/-- The interval after a recomputation is its phase's (41_phase_counter.md R125). -/
theorem StandsAt.nextInterval_eq : nextInterval s = interval c (phaseOf ((r + 1) / 256)) := by
  obtain ⟨hival, -⟩ := (inv_iff s).mp h.ready.2.2
  rw [nextInterval_eq_interval s hival, h.nextPhase_eq, h.cfg]

/-- A recomputation computes the value of its number, in both lookup orders (41_phase_counter.md R126). -/
theorem StandsAt.scale_eq (m : Nat) :
    scale s.cfg (lutSample s) (lookupPhase s) m = recomputedOut c m (r + 1) := by
  obtain ⟨hsys, hpstep, -⟩ := Engine.mk.inj h.engine
  rw [lutSample, lutAddress, lookupPhase, recomputedOut, h.cfg]
  cases c.order with
  | lookupFirst => simp only [hsys, hpstep, Nat.add_sub_cancel]
  | advanceFirst => simp only [h.nextPhaseStep_eq, h.nextPhase_eq]

/-- The interval's last TICK is the next recomputation (41_phase_counter.md R121 to R126). -/
theorem StandsAt.tick_recomputes (m : Nat) (hm : presetRead c psel = some m)
    (hk : k + 1 = interval c (phaseOf (r / 256))) :
    ∃ t, exec .tick s = .next t ∧ StandsAt c psel (r + 1) 0 (recomputedOut c m (r + 1)) t := by
  obtain ⟨-, -, hival, htcnt, -, hpsel⟩ := Engine.mk.inj h.engine
  have hr : recompute s = true := (ready_recompute s h.ready).mpr (by rw [hival, htcnt]; exact hk)
  have hread : presetNumerator s = some m := by rw [presetNumerator, h.cfg, hpsel, hm]
  obtain ⟨m', hread', hexec⟩ := exec_tick_of_recompute s h.ready hr
  obtain rfl : m = m' := Option.some.inj (hread.symm.trans hread')
  refine ⟨_, hexec, exec_next_ready _ _ _ hexec, h.cfg, ?_⟩
  rw [State.engine, recomputeEffect_sys, recomputeEffect_pstep, recomputeEffect_ival, recomputeEffect_tcnt,
    recomputeEffect_out, recomputeEffect_psel, h.nextPhase_eq, h.nextPhaseStep_eq, h.nextInterval_eq, h.scale_eq,
    hpsel, engineAt]

end

/-- OUT once r recomputations are done, of a run that started with r₀ of them done and the duty value `out`. -/
def outSince (c : Config) (m r₀ : Nat) (out : Byte) (r : Nat) : Byte := if r = r₀ then out else recomputedOut c m r

@[simp] theorem outSince_self (c : Config) (m r₀ : Nat) (out : Byte) : outSince c m r₀ out r₀ = out := if_pos rfl

theorem outSince_of_ne (c : Config) (m r₀ : Nat) (out : Byte) (r : Nat) (h : r ≠ r₀) :
    outSince c m r₀ out r = recomputedOut c m r := if_neg h

/-- Once recomputation r₀ + 1 is done, it makes no difference that the run started before it. -/
theorem outSince_succ (c : Config) (m r₀ : Nat) (out : Byte) (r : Nat) (h : r₀ < r) :
    outSince c m (r₀ + 1) (recomputedOut c m (r₀ + 1)) r = outSince c m r₀ out r := by
  rw [outSince_of_ne c m r₀ out r (by omega), outSince]
  split
  · next he => rw [he]
  · rfl

/-- A session's run goes on and stands as many TICKs later as it has (41_phase_counter.md R127). -/
theorem StandsAt.run {c : Config} {psel : Byte} {r k : Nat} {out : Byte} {s : State}
    (h : StandsAt c psel r k out s) (m : Nat) (hm : presetRead c psel = some m)
    (hk : k < interval c (phaseOf (r / 256))) (ops : List Instr) (hops : sessionOps ops = true) :
    ∃ t r' k', runOps ops s = .next t ∧ StandsAt c psel r' k' (outSince c m r out r') t ∧ r ≤ r' ∧
      k' < interval c (phaseOf (r' / 256)) ∧ recomputeTick c r' + k' = recomputeTick c r + k + tickCount ops := by
  induction ops generalizing s r k out with
  | nil => exact ⟨s, r, k, rfl, by rwa [outSince_self], le_rfl, hk, rfl⟩
  | cons i rest ih =>
    obtain ⟨hi, hrest⟩ := (sessionOps_cons i rest).mp hops
    rcases hi with rfl | rfl
    · obtain ⟨u, hexec, hu⟩ := h.idle
      rw [runOps_cons_next _ _ s u hexec, tickCount_idle]
      exact ih hu hk hrest
    · rw [tickCount_tick]
      rcases Nat.lt_or_eq_of_le (Nat.succ_le_of_lt hk) with hcount | hlast
      · obtain ⟨u, hexec, hu⟩ := h.tick_counts hcount
        obtain ⟨t, r', k', hrun, ht, hle, hk', htick⟩ := ih hu hcount hrest
        exact ⟨t, r', k', (runOps_cons_next _ _ s u hexec).trans hrun, ht, hle, hk', by omega⟩
      · obtain ⟨u, hexec, hu⟩ := h.tick_recomputes m hm hlast
        have hpos : 0 < interval c (phaseOf ((r + 1) / 256)) := interval_pos c (h.cfg ▸ h.ready.1) _
        obtain ⟨t, r', k', hrun, ht, hle, hk', htick⟩ := ih hu hpos hrest
        rw [outSince_succ c m r out r' hle] at ht
        rw [recomputeTick_succ] at htick
        exact ⟨t, r', k', (runOps_cons_next _ _ s u hexec).trans hrun, ht, by omega, hk', by omega⟩

/-- A run from the start of an interval ends where its number of TICKs says. -/
theorem StandsAt.run_stands {c : Config} {psel : Byte} {r₀ : Nat} {out : Byte} {s : State}
    (h : StandsAt c psel r₀ 0 out s) (m : Nat) (hm : presetRead c psel = some m) (ops : List Instr)
    (hops : sessionOps ops = true) :
    ∃ t, runOps ops s = .next t ∧
      ∀ r k, k < interval c (phaseOf (r / 256)) → recomputeTick c r + k = recomputeTick c r₀ + tickCount ops →
        StandsAt c psel r k (outSince c m r₀ out r) t := by
  have hc : c.admitted = true := h.cfg ▸ h.ready.1
  obtain ⟨t, r', k', hrun, ht, -, hk', htick⟩ := h.run m hm (interval_pos c hc _) ops hops
  refine ⟨t, hrun, fun r k hk heq => ?_⟩
  obtain ⟨rfl, rfl⟩ := recomputation_unique c hc r r' k k' hk hk' (by omega)
  exact ht

/-- A run after a RESET ends where its number of TICKs says. -/
theorem runOps_reset_stands (s : State) (p : Byte) (m : Nat) (ops : List Instr) (hc : s.cfg.admitted = true)
    (hm : presetRead s.cfg (resolvePreset s.cfg p) = some m) (hops : sessionOps ops = true) :
    ∃ t, runOps (.reset p :: ops) s = .next t ∧
      ∀ r k, k < interval s.cfg (phaseOf (r / 256)) → recomputeTick s.cfg r + k = tickCount ops →
        StandsAt s.cfg (resolvePreset s.cfg p) r k (outSince s.cfg m 0 0 r) t := by
  obtain ⟨t, hrun, ht⟩ := (standsAt_reset s p hc).run_stands m hm ops hops
  refine ⟨t, (runOps_cons_next _ _ _ _ (exec_reset p s hc)).trans hrun, fun r k hk htick => ht r k hk ?_⟩
  rw [htick, recomputeTick_zero, Nat.zero_add]

/-! ### The spacing of recomputations and the phases (41_phase_counter.md R127, R128) -/

/-- A ready state at the start of an interval stands right after a recomputation of some phase x of its own kind. -/
theorem exists_standsAt (s : State) (hs : s.ready) (h0 : s.tcnt = 0) :
    ∃ x, phaseOf x = s.sys ∧ StandsAt s.cfg s.psel (256 * x + s.pstep.toNat) 0 s.out s := by
  obtain ⟨x, hx⟩ := exists_phaseOf s.sys
  have hlt := s.pstep.isLt
  have hphase : (256 * x + s.pstep.toNat) / 256 = x := by omega
  have hpstep : s.pstep = BitVec.ofNat 8 (256 * x + s.pstep.toNat) := by
    apply BitVec.eq_of_toNat_eq
    rw [BitVec.toNat_ofNat]
    omega
  exact ⟨x, hx, h0 ▸ standsAt_of_ready s hs _ (by rw [hphase, hx]) hpstep⟩

/-- From the start of an interval, nothing is recomputed before its last TICK, and that TICK recomputes
(41_phase_counter.md R127). -/
theorem runOps_one_interval (s : State) (ops : List Instr) (hs : s.ready) (h0 : s.tcnt = 0)
    (hops : sessionOps ops = true) :
    ∃ t, runOps ops s = .next t ∧
      (tickCount ops < interval s.cfg s.sys →
        t.tcnt = tickCount ops ∧ t.pstep = s.pstep ∧ t.out = s.out ∧ t.sys = s.sys) ∧
      (tickCount ops = interval s.cfg s.sys → t.tcnt = 0 ∧ t.pstep = s.pstep + 1) := by
  obtain ⟨x, hx, hstand⟩ := exists_standsAt s hs h0
  obtain ⟨m, hm⟩ := ready_preset s hs
  obtain ⟨t, hrun, ht⟩ := hstand.run_stands m hm ops hops
  obtain ⟨hsys, hpstep, -⟩ := Engine.mk.inj hstand.engine
  refine ⟨t, hrun, fun hlt => ?_, fun hlast => ?_⟩
  · have hend := ht _ (tickCount ops) (hsys ▸ hlt) rfl
    obtain ⟨htsys, htpstep, -, httcnt, htout, -⟩ := Engine.mk.inj hend.engine
    exact ⟨httcnt, htpstep.trans hpstep.symm, htout.trans (outSince_self ..), htsys.trans hsys.symm⟩
  · have hend := ht (256 * x + s.pstep.toNat + 1) 0 (interval_pos _ hs.1 _)
      (by rw [recomputeTick_succ, hlast, ← hsys, Nat.add_zero])
    obtain ⟨-, htpstep, -, httcnt, -⟩ := Engine.mk.inj hend.engine
    exact ⟨httcnt, (htpstep.trans (BitVec.ofNat_add _ 1)).trans (congrArg (· + 1) hpstep.symm)⟩

/-- Settles O29: the interval of any phase, and that of the Diastole a RESET starts. -/
theorem recomputationsAreOneIntervalApart : Obligations.RecomputationsAreOneIntervalApart := by
  refine ⟨fun s ops hs h0 hops => ?_, fun s p ops hc hops _ => ?_⟩
  · intro gap _
    have hgap : interval s.cfg s.sys = gap := interval_eq_ite s.cfg s.sys
    exact hgap ▸ runOps_one_interval s ops hs h0 hops
  · obtain ⟨t, hrun, hbefore, hlast⟩ := runOps_one_interval (resetEffect p s) ops (standsAt_reset s p hc).ready rfl hops
    refine ⟨t, (runOps_cons_next _ _ _ _ (exec_reset p s hc)).trans hrun, fun hlt => ?_, fun heq => ?_⟩
    · obtain ⟨-, hpstep, hout, -⟩ := hbefore hlt
      exact ⟨hpstep, hout⟩
    · exact (hlast heq).symm

/-- The registers at phase step j of phase x. -/
theorem StandsAt.registers_in_phase {c : Config} {psel : Byte} {x j k : Nat} {out : Byte} {t : State}
    (h : StandsAt c psel (256 * x + j) k out t) (hj : j < 256) :
    t.sys = phaseOf x ∧ t.pstep.toNat = j ∧ t.ival = interval c (phaseOf x) ∧ t.tcnt = k := by
  obtain ⟨hsys, hpstep, hival, htcnt, -⟩ := Engine.mk.inj h.engine
  have hphase : (256 * x + j) / 256 = x := by omega
  rw [hphase] at hsys hival
  refine ⟨hsys, ?_, hival, htcnt⟩
  rw [hpstep, BitVec.toNat_ofNat]
  omega

/-- A run from the start of a phase ends at the phase step, of that phase or a later one, where its number of TICKs
says. -/
theorem runOps_from_phase_start (s : State) (ops : List Instr) (hs : s.ready) (h0 : s.tcnt = 0) (hpstep : s.pstep = 0)
    (hops : sessionOps ops = true) :
    ∃ x t, phaseOf x = s.sys ∧ runOps ops s = .next t ∧
      ∀ x' j k, j < 256 → k < interval s.cfg (phaseOf x') →
        recomputeTick s.cfg (256 * x' + j) + k = recomputeTick s.cfg (256 * x) + tickCount ops →
        t.sys = phaseOf x' ∧ t.pstep.toNat = j ∧ t.ival = interval s.cfg (phaseOf x') ∧ t.tcnt = k := by
  obtain ⟨x, hx, hstand⟩ := exists_standsAt s hs h0
  obtain ⟨m, hm⟩ := ready_preset s hs
  obtain ⟨t, hrun, ht⟩ := hstand.run_stands m hm ops hops
  refine ⟨x, t, hx, hrun, fun x' j k hj hk htick => ?_⟩
  have hphase : (256 * x' + j) / 256 = x' := by omega
  refine (ht (256 * x' + j) k (by rwa [hphase]) ?_).registers_in_phase hj
  rwa [hpstep]

/-- Settles O30: 256 recomputations take 256 of the phase's intervals, and 512 of them a cycle. -/
theorem phasesLastTwoHundredFiftySixRecomputations : Obligations.PhasesLastTwoHundredFiftySixRecomputations := by
  intro s ops hs h0 hpstep hops gap
  obtain ⟨x, t, hx, hrun, hend⟩ := runOps_from_phase_start s ops hs h0 hpstep hops
  have hgap : interval s.cfg (phaseOf x) = gap := (congrArg _ hx).trans (interval_eq_ite s.cfg s.sys)
  have hpos := interval_pos s.cfg hs.1
  clear_value gap
  refine ⟨t, hrun, fun hlt => ?_, fun heq => ?_, fun heq => ?_⟩
  · have hstep : tickCount ops / gap < 256 := Nat.div_lt_of_lt_mul (by rwa [Nat.mul_comm] at hlt)
    have hrest : tickCount ops % gap < gap := Nat.mod_lt _ (hgap ▸ hpos _)
    have htick : recomputeTick s.cfg (256 * x + tickCount ops / gap) + tickCount ops % gap =
        recomputeTick s.cfg (256 * x) + tickCount ops := by
      rw [recomputeTick_in_phase _ _ _ hstep.le, hgap, Nat.add_assoc, Nat.div_add_mod']
    obtain ⟨htsys, htpstep, htival, -⟩ := hend x _ _ hstep (hgap.symm ▸ hrest) htick
    exact ⟨htsys.trans hx, htival.trans hgap, htpstep⟩
  · have htick : recomputeTick s.cfg (256 * (x + 1) + 0) + 0 = recomputeTick s.cfg (256 * x) + tickCount ops := by
      rw [Nat.add_zero, Nat.add_zero, Nat.mul_succ, recomputeTick_in_phase _ _ _ le_rfl, hgap, heq]
    obtain ⟨htsys, htpstep, htival, httcnt⟩ := hend (x + 1) 0 0 (by decide) (hpos _) htick
    refine ⟨?_, BitVec.eq_of_toNat_eq htpstep, httcnt, ?_⟩
    · rw [htsys, phaseOf_succ, hx]
      exact toggle_ne s.sys
    · rw [htival, ← htsys, interval_eq_ite]
  · have htick : recomputeTick s.cfg (256 * (x + 2) + 0) + 0 = recomputeTick s.cfg (256 * x) + tickCount ops := by
      rw [Nat.add_zero, Nat.add_zero, Nat.mul_add, recomputeTick_add_cycle, heq, cycleTicks]
    obtain ⟨htsys, htpstep, htival, httcnt⟩ := hend (x + 2) 0 0 (by decide) (hpos _) htick
    rw [phaseOf_add_two] at htsys htival
    exact ⟨htsys.trans hx, BitVec.eq_of_toNat_eq htpstep, httcnt, htival.trans hgap⟩

/-! ### The closed form (41_phase_counter.md R130) -/

section
variable (c : Config) (n : Nat)

/-- The Diastole of the closed form: phase step j of cycle q, with TCNT what is left of the n TICKs. -/
theorem closed_diastole (hlt : n % cycleTicks c < 256 * c.modBase) :
    ∃ q j, j < 256 ∧ closedSys c n = .diastole ∧ closedStep c n = j ∧ closedRecomputations c n = 512 * q + j ∧
      closedTcnt c n < c.modBase ∧ cycleTicks c * q + j * c.modBase + closedTcnt c n = n := by
  have hb : 0 < c.modBase := by omega
  have hsys : closedSys c n = .diastole := if_pos hlt
  have hstep : closedStep c n = n % cycleTicks c / c.modBase := if_pos hlt
  have htcnt : closedTcnt c n = n % cycleTicks c % c.modBase := if_pos hlt
  refine ⟨n / cycleTicks c, closedStep c n, ?_, hsys, rfl, ?_, ?_, ?_⟩
  · rw [hstep]
    exact Nat.div_lt_of_lt_mul (by rwa [Nat.mul_comm])
  · rw [closedRecomputations, hsys]
  · rw [htcnt]
    exact Nat.mod_lt _ hb
  · rw [hstep, htcnt, Nat.add_assoc, Nat.div_add_mod', Nat.div_add_mod]

/-- The Systole of the closed form: phase step j after the Diastole of cycle q, with TCNT what is left of the n
TICKs. -/
theorem closed_systole (hb : 0 < c.modBase) (hle : 256 * c.modBase ≤ n % cycleTicks c) :
    ∃ q j, j < 256 ∧ closedSys c n = .systole ∧ closedStep c n = j ∧ closedRecomputations c n = 512 * q + 256 + j ∧
      closedTcnt c n < 2 * c.modBase ∧
      cycleTicks c * q + 256 * c.modBase + j * (2 * c.modBase) + closedTcnt c n = n := by
  have hcycle : n % cycleTicks c < 768 * c.modBase := Nat.mod_lt _ (by rw [cycleTicks]; omega)
  have hsys : closedSys c n = .systole := if_neg hle.not_gt
  have hstep : closedStep c n = (n % cycleTicks c - 256 * c.modBase) / (2 * c.modBase) := if_neg hle.not_gt
  have htcnt : closedTcnt c n = (n % cycleTicks c - 256 * c.modBase) % (2 * c.modBase) := if_neg hle.not_gt
  refine ⟨n / cycleTicks c, closedStep c n, ?_, hsys, rfl, ?_, ?_, ?_⟩
  · rw [hstep]
    exact Nat.div_lt_of_lt_mul (by omega)
  · rw [closedRecomputations, hsys, Nat.add_assoc]
  · rw [htcnt]
    exact Nat.mod_lt _ (by omega)
  · rw [hstep, htcnt, Nat.add_assoc, Nat.div_add_mod', Nat.add_assoc, Nat.add_sub_cancel' hle, Nat.div_add_mod]

variable (hc : c.admitted = true)
include hc

/-- The closed form's recomputations and TCNT are where the n-th TICK is: its phase and phase step are those of the
recomputation's number, and TCNT is what is left of the TICKs within the interval. -/
theorem closed_position :
    closedSys c n = phaseOf (closedRecomputations c n / 256) ∧
      BitVec.ofNat 8 (closedStep c n) = (BitVec.ofNat 8 (closedRecomputations c n) : Byte) ∧
      closedTcnt c n < interval c (closedSys c n) ∧
      recomputeTick c (closedRecomputations c n) + closedTcnt c n = n := by
  rcases Nat.lt_or_ge (n % cycleTicks c) (256 * c.modBase) with hlt | hge
  · obtain ⟨q, j, hj, hsys, hstep, hrec, htcnt, htick⟩ := closed_diastole c n hlt
    rw [hsys, hstep, hrec, phaseOf_diastole q j hj, recomputeTick_diastole c q j hj.le]
    exact ⟨rfl, by bv_omega, htcnt, htick⟩
  · obtain ⟨q, j, hj, hsys, hstep, hrec, htcnt, htick⟩ := closed_systole c n (admitted_width c hc).1 hge
    rw [hsys, hstep, hrec, phaseOf_systole q j hj, recomputeTick_systole c q j hj.le]
    exact ⟨rfl, by bv_omega, htcnt, htick⟩

/-- The closed form is the engine where the n-th TICK is. -/
theorem closedForm_eq_engineAt (psel : Byte) (m : Nat) :
    closedForm c psel m n =
      engineAt c psel (closedRecomputations c n) (closedTcnt c n) (outSince c m 0 0 (closedRecomputations c n)) := by
  obtain ⟨hsys, hstep, -⟩ := closed_position c n hc
  rw [closedForm, engineAt, hstep, ← hsys]
  rfl

/-- Before TICK B, and only there, nothing has been recomputed (41_phase_counter.md R127). -/
theorem closedRecomputations_eq_zero_iff : closedRecomputations c n = 0 ↔ n < c.modBase := by
  obtain ⟨hsys, -, hlt, htick⟩ := closed_position c n hc
  have hfirst : recomputeTick c 1 = c.modBase := Nat.zero_add _
  refine ⟨fun h0 => ?_, fun hn => ?_⟩
  · rw [hsys, h0] at hlt
    rw [h0, recomputeTick_zero, Nat.zero_add] at htick
    exact htick ▸ hlt
  · have hbefore : recomputeTick c (closedRecomputations c n) < recomputeTick c 1 := by omega
    exact Nat.lt_one_iff.mp ((recomputeTick_strictMono c hc).lt_iff_lt.mp hbefore)

end

/-- Settles O31: the run ends where its number of TICKs says, and so does the closed form. -/
theorem engineHasItsClosedForm : Obligations.EngineHasItsClosedForm := by
  intro s p ops m hc hops hm
  obtain ⟨t, hrun, ht⟩ := runOps_reset_stands s p m ops hc hm hops
  obtain ⟨hsys, -, hlt, htick⟩ := closed_position s.cfg (tickCount ops) hc
  refine ⟨t, hrun, ?_⟩
  rw [closedForm_eq_engineAt s.cfg _ hc]
  exact (ht _ _ (hsys ▸ hlt) htick).engine

/-! ### The period (41_phase_counter.md R131) -/

section
variable (c : Config) (m : Nat)

/-- Recomputations a cycle apart compute the same value, but for the start, which computes none. -/
theorem recomputedOut_add_cycle (r : Nat) (hr : 0 < r) : recomputedOut c m (r + 512) = recomputedOut c m r := by
  have hentry : ∀ x : Nat, (BitVec.ofNat 8 (x + 512) : Byte) = BitVec.ofNat 8 x := fun x => by bv_omega
  have hphase : ∀ x : Nat, phaseOf ((x + 512) / 256) = phaseOf (x / 256) := fun x => by
    rw [show (x + 512) / 256 = x / 256 + 2 by omega, phaseOf_add_two]
  have hprev : r + 512 - 1 = r - 1 + 512 := by omega
  rw [recomputedOut, recomputedOut, hprev, hentry, hentry, hphase, hphase]

variable (hc : c.admitted = true)
include hc

theorem closedRecomputations_add_cycle (n : Nat) :
    closedRecomputations c (n + cycleTicks c) = closedRecomputations c n + 512 := by
  have hpos : 0 < cycleTicks c := Nat.mul_pos (by decide) (admitted_width c hc).1
  simp only [closedRecomputations, closedSys, closedStep, Nat.add_mod_right, Nat.add_div_right n hpos]
  omega

/-- A cycle later the closed form is the same but for OUT, which is the value a cycle of recomputations later. -/
theorem closedForm_add_cycle (psel : Byte) (n : Nat) :
    closedForm c psel m (n + cycleTicks c) =
      { closedForm c psel m n with out := recomputedOut c m (closedRecomputations c n + 512) } := by
  simp [closedForm, closedSys, closedStep, closedTcnt, closedOut, closedRecomputations_add_cycle c hc]

end

/-- Settles O32: both runs have their closed forms, a cycle apart. -/
theorem engineIsPeriodic : Obligations.EngineIsPeriodic := by
  intro s p ops later hc hops hlater hticks
  obtain ⟨m, hm⟩ := (presetRead_isSome s.cfg _).mpr (resolvePreset_lt s.cfg hc p)
  obtain ⟨t, hrun, ht⟩ := engineHasItsClosedForm s p ops m hc hops hm
  obtain ⟨u, hrunLater, hu⟩ := engineHasItsClosedForm s p later m hc hlater hm
  have hzero := closedRecomputations_eq_zero_iff s.cfg (tickCount ops) hc
  have hout : t.out = closedOut s.cfg m (tickCount ops) := congrArg Engine.out ht
  have hcycle : u.engine = { t.engine with
      out := recomputedOut s.cfg m (closedRecomputations s.cfg (tickCount ops) + 512) } := by
    rw [hu, hticks, ht]
    exact closedForm_add_cycle s.cfg m hc _ _
  refine ⟨t, u, hrun, hrunLater, fun hle => ?_, fun hlt => ?_⟩
  · have hne : closedRecomputations s.cfg (tickCount ops) ≠ 0 := mt hzero.mp hle.not_gt
    rw [closedOut, if_neg hne] at hout
    rw [hcycle, recomputedOut_add_cycle _ _ _ (Nat.pos_of_ne_zero hne), ← hout]
    rfl
  · rw [closedOut, if_pos (hzero.mpr hlt)] at hout
    rw [hcycle, ← hout]
    exact ⟨rfl, rfl⟩

/-! ### The duty sequence of a cycle (41_phase_counter.md R132) -/

/-- The scaled table entry of phase step x, counted from a RESET. -/
def stepValue (c : Config) (m x : Nat) : Byte :=
  scale c (memRead c.wave (BitVec.ofNat 8 x)) (phaseOf (x / 256)) m

section
variable (c : Config) (m : Nat)

/-- With LOOKUP_FIRST a recomputation reads the table at the phase step it ends (41_phase_counter.md R126). -/
theorem recomputedOut_lookupFirst (h : c.order = .lookupFirst) (x : Nat) :
    recomputedOut c m (x + 1) = stepValue c m x := by
  rw [recomputedOut, h, Nat.add_sub_cancel, stepValue]

/-- With ADVANCE_FIRST a recomputation reads the table at the phase step it starts (41_phase_counter.md R126). -/
theorem recomputedOut_advanceFirst (h : c.order = .advanceFirst) (x : Nat) :
    recomputedOut c m x = stepValue c m x := by
  rw [recomputedOut, h, stepValue]

/-- The first 256 phase steps of a cycle read the whole table in Diastole. -/
theorem stepValue_diastole (q j : Nat) (hj : j < 256) :
    stepValue c m (512 * q + j) = scale c (memRead c.wave (BitVec.ofNat 8 j)) .diastole m := by
  have hentry : (BitVec.ofNat 8 (512 * q + j) : Byte) = BitVec.ofNat 8 j := by bv_omega
  rw [stepValue, hentry, phaseOf_diastole q j hj]

/-- The last 256 phase steps of a cycle read the whole table in Systole. -/
theorem stepValue_systole (q j : Nat) (hj : j < 256) :
    stepValue c m (512 * q + 256 + j) = scale c (memRead c.wave (BitVec.ofNat 8 j)) .systole m := by
  have hentry : (BitVec.ofNat 8 (512 * q + 256 + j) : Byte) = BitVec.ofNat 8 j := by bv_omega
  rw [stepValue, hentry, phaseOf_systole q j hj]

end

/-- After a RESET, OUT is 0 before TICK B and holds each recomputation's value for the interval after it, B in the
Diastole of cycle q and 2·B in its Systole. -/
theorem runOps_reset_out (s : State) (p : Byte) (m : Nat) (ops : List Instr) (hc : s.cfg.admitted = true)
    (hm : presetRead s.cfg (resolvePreset s.cfg p) = some m) (hops : sessionOps ops = true) :
    let b := s.cfg.modBase
    let n := tickCount ops
    ∃ t, runOps (.reset p :: ops) s = .next t ∧
      (n < b → t.out = 0) ∧
      (∀ q j, j < 256 → 0 < 512 * q + j → 768 * b * q + j * b ≤ n → n < 768 * b * q + j * b + b →
        t.out = recomputedOut s.cfg m (512 * q + j)) ∧
      (∀ q j, j < 256 → 768 * b * q + 256 * b + j * (2 * b) ≤ n → n < 768 * b * q + 256 * b + j * (2 * b) + 2 * b →
        t.out = recomputedOut s.cfg m (512 * q + 256 + j)) := by
  intro b n
  obtain ⟨t, hrun, ht⟩ := runOps_reset_stands s p m ops hc hm hops
  have hout : ∀ r k, k < interval s.cfg (phaseOf (r / 256)) → recomputeTick s.cfg r + k = n →
      t.out = outSince s.cfg m 0 0 r := fun r k hk htick => congrArg Engine.out (ht r k hk htick).engine
  refine ⟨t, hrun, fun hn => ?_, fun q j hj hpos hle hlt => ?_, fun q j hj hle hlt => ?_⟩
  · exact hout 0 n hn (Nat.zero_add n)
  · have hstart : recomputeTick s.cfg (512 * q + j) = 768 * b * q + j * b := recomputeTick_diastole s.cfg q j hj.le
    have hkeep := hout (512 * q + j) (n - (768 * b * q + j * b))
      (by rw [phaseOf_diastole q j hj]; exact Nat.sub_lt_left_of_lt_add hle hlt)
      (by rw [hstart, Nat.add_sub_cancel' hle])
    rw [hkeep, outSince_of_ne _ _ _ _ _ hpos.ne']
  · have hstart : recomputeTick s.cfg (512 * q + 256 + j) = 768 * b * q + 256 * b + j * (2 * b) :=
      recomputeTick_systole s.cfg q j hj.le
    have hkeep := hout (512 * q + 256 + j) (n - (768 * b * q + 256 * b + j * (2 * b)))
      (by rw [phaseOf_systole q j hj]; exact Nat.sub_lt_left_of_lt_add hle hlt)
      (by rw [hstart, Nat.add_sub_cancel' hle])
    rw [hkeep, outSince_of_ne _ _ _ _ _ (by omega)]

/-- Settles O33: the value OUT holds is that of the recomputation before, and the lookup order says which phase step's
entry that is. -/
theorem dutySequenceOfACycle : Obligations.DutySequenceOfACycle := by
  intro s p ops m hc hops hm b n value
  obtain ⟨t, hrun, hzero, hdiastole, hsystole⟩ := runOps_reset_out s p m ops hc hm hops
  /- Recomputations 256 and 512 start the Systole and the next cycle's Diastole, at phase step 0. -/
  have hfirstSystole : ∀ q, 768 * b * q + 256 * b ≤ n → n < 768 * b * q + 256 * b + 2 * b →
      t.out = recomputedOut s.cfg m (512 * q + 256 + 0) := fun q hle hlt =>
    hsystole q 0 (by decide) (by rwa [Nat.zero_mul]) (by rwa [Nat.zero_mul])
  have hnextCycle : ∀ q, 768 * b * q + 768 * b ≤ n → n < 768 * b * q + 768 * b + b →
      t.out = recomputedOut s.cfg m (512 * (q + 1) + 0) := fun q hle hlt =>
    hdiastole (q + 1) 0 (by decide) (by omega) (by rwa [Nat.zero_mul, Nat.mul_succ])
      (by rwa [Nat.zero_mul, Nat.mul_succ])
  refine ⟨t, hrun, hzero, fun q r => ⟨fun horder => ⟨?_, ?_, ?_, ?_⟩, fun horder => ⟨?_, ?_, ?_, ?_⟩⟩⟩
  · intro hr hr' hle hlt
    have hprev : 512 * q + r = 512 * q + (r - 1) + 1 := by omega
    rw [hdiastole q r (by omega) (by omega) hle hlt, hprev, recomputedOut_lookupFirst _ _ horder,
      stepValue_diastole _ _ _ _ (by omega)]
  · intro hle hlt
    rw [hfirstSystole q hle hlt]
    exact (recomputedOut_lookupFirst _ _ horder _).trans (stepValue_diastole _ _ _ 255 (by decide))
  · intro hr hr' hle hlt
    have hprev : 512 * q + 256 + (r - 256) = 512 * q + 256 + (r - 257) + 1 := by omega
    rw [hsystole q (r - 256) (by omega) hle hlt, hprev, recomputedOut_lookupFirst _ _ horder,
      stepValue_systole _ _ _ _ (by omega)]
  · intro hle hlt
    rw [hnextCycle q hle hlt]
    exact (recomputedOut_lookupFirst _ _ horder _).trans (stepValue_systole _ _ _ 255 (by decide))
  · intro hr hr' hle hlt
    rw [hdiastole q r (by omega) (by omega) hle hlt, recomputedOut_advanceFirst _ _ horder,
      stepValue_diastole _ _ _ _ (by omega)]
  · intro hle hlt
    rw [hfirstSystole q hle hlt, recomputedOut_advanceFirst _ _ horder, stepValue_systole _ _ _ _ (by decide)]
  · intro hr hr' hle hlt
    rw [hsystole q (r - 256) (by omega) hle hlt, recomputedOut_advanceFirst _ _ horder,
      stepValue_systole _ _ _ _ (by omega)]
  · intro hle hlt
    rw [hnextCycle q hle hlt, recomputedOut_advanceFirst _ _ horder, stepValue_diastole _ _ _ _ (by decide)]

end Sys2Proof.Machine
end

section
/-! PROOFS. The reference table's shape: it is symmetric about its peak and rises up to it, so four entries of the rise
fix where its least and greatest bytes stand (42_waveform_lut.md R144). -/

namespace Sys2Proof

/-! ### The listing, and the ROM's reads of it (42_waveform_lut.md R143) -/

theorem waveRefBytes_length : waveRefBytes.length = 256 := by decide +kernel

theorem waveRefBytes_tail_reverse : waveRefBytes.tail.reverse = waveRefBytes.tail := by decide +kernel

theorem waveRefBytes_rise : (waveRefBytes.take 129).Pairwise (· ≤ ·) := by decide +kernel

theorem waveRefBytes_sum : (waveRefBytes.map BitVec.toNat).sum = 32513 := by decide +kernel

theorem waveRefBytes_getElem? (a : Byte) : waveRefBytes[a.toNat]? = some (memRead waveRef a) :=
  romHoldsTheTable waveRefBytes a waveRefBytes_length

/-- Reading the ROM from the first address to the last gives the listing back. -/
theorem map_memRead_waveRef :
    ((List.range 256).map fun a => memRead waveRef (BitVec.ofNat 8 a)) = waveRefBytes := by
  refine List.ext_getElem? fun i => ?_
  by_cases hi : i < 256
  · have hread := waveRefBytes_getElem? (BitVec.ofNat 8 i)
    rw [BitVec.toNat_ofNat, Nat.mod_eq_of_lt hi] at hread
    simp [hread, hi]
  · have hlen := waveRefBytes_length
    rw [List.getElem?_eq_none (by simpa using hi), List.getElem?_eq_none (by omega)]

/-- The last entry 0 of the rise and the first above it, and the last entry below the peak and the peak. -/
theorem waveRef_landmarks :
    memRead waveRef 5 = 0 ∧ memRead waveRef 6 = 1 ∧ memRead waveRef 127 = 254 ∧ memRead waveRef 128 = 255 := by
  decide +kernel

/-- But for entry 0 the listing reads the same backwards, so entry i is entry 256 - i. -/
theorem waveRef_mirror (a : Byte) (ha : a ≠ 0) : memRead waveRef a = memRead waveRef (0 - a) := by
  have hlen : waveRefBytes.tail.length = 255 := by rw [List.length_tail, waveRefBytes_length]
  have hback : waveRefBytes.tail.reverse[a.toNat - 1]? = waveRefBytes.tail[255 - a.toNat]? := by
    rw [List.getElem?_reverse (by bv_omega), hlen]
    congr 1
    bv_omega
  rw [waveRefBytes_tail_reverse, List.getElem?_tail, List.getElem?_tail,
    show a.toNat - 1 + 1 = a.toNat by bv_omega, show 255 - a.toNat + 1 = (0 - a).toNat by bv_omega,
    waveRefBytes_getElem?, waveRefBytes_getElem?] at hback
  exact Option.some.inj hback

/-! ### The rising half, entries 0 to 128 -/

theorem waveRef_mono_rise (a b : Byte) (hab : a ≤ b) (hb : b ≤ 128) : memRead waveRef a ≤ memRead waveRef b := by
  have hread : ∀ x : Byte, x ≤ 128 → (waveRefBytes.take 129)[x.toNat]? = some (memRead waveRef x) := fun x hx => by
    rw [List.getElem?_take_of_lt (by bv_omega), waveRefBytes_getElem?]
  rcases Nat.eq_or_lt_of_le hab with heq | hlt
  · exact (BitVec.eq_of_toNat_eq heq : a = b) ▸ BitVec.le_refl _
  · obtain ⟨ha', hra⟩ := List.getElem?_eq_some_iff.mp (hread a (BitVec.le_trans hab hb))
    obtain ⟨hb', hrb⟩ := List.getElem?_eq_some_iff.mp (hread b hb)
    rw [← hra, ← hrb]
    exact List.pairwise_iff_getElem.mp waveRefBytes_rise _ _ ha' hb' hlt

theorem waveRef_eq_peak_iff_rise (a : Byte) (ha : a ≤ 128) : memRead waveRef a = 255 ↔ a = 128 := by
  obtain ⟨-, -, hbelow, hpeak⟩ := waveRef_landmarks
  refine ⟨fun h => ?_, fun h => h ▸ hpeak⟩
  by_contra hne
  have hle := waveRef_mono_rise a 127 (by bv_omega) (by decide)
  rw [h, hbelow] at hle
  exact absurd hle (by decide)

theorem waveRef_eq_zero_iff_rise (a : Byte) (ha : a ≤ 128) : memRead waveRef a = 0 ↔ a ≤ 5 := by
  obtain ⟨hzero, habove, -, -⟩ := waveRef_landmarks
  refine ⟨fun h => ?_, fun h => ?_⟩
  · by_contra hgt
    have hle := waveRef_mono_rise 6 a (by bv_omega) ha
    rw [h, habove] at hle
    exact absurd hle (by decide)
  · have hle := waveRef_mono_rise a 5 h (by decide)
    rw [hzero] at hle
    exact BitVec.le_zero_iff.mp hle

/-! ### The whole table -/

/-- Every entry is one of the rising half: its own or its mirror's. -/
theorem waveRef_eq_rise (a : Byte) :
    ∃ b : Byte, b ≤ 128 ∧ (b = a ∨ b = 0 - a) ∧ memRead waveRef a = memRead waveRef b := by
  by_cases ha : a ≤ 128
  · exact ⟨a, ha, .inl rfl, rfl⟩
  · exact ⟨0 - a, by bv_omega, .inr rfl, waveRef_mirror a (by bv_omega)⟩

theorem waveRef_eq_peak_iff (a : Byte) : memRead waveRef a = 255 ↔ a = 128 := by
  obtain ⟨b, hb, hab, hread⟩ := waveRef_eq_rise a
  rw [hread, waveRef_eq_peak_iff_rise b hb]
  bv_omega

theorem waveRef_eq_zero_iff (a : Byte) : memRead waveRef a = 0 ↔ a ≤ 5 ∨ 251 ≤ a := by
  obtain ⟨b, hb, hab, hread⟩ := waveRef_eq_rise a
  rw [hread, waveRef_eq_zero_iff_rise b hb]
  bv_omega

/-- The fall is the mirror's rise. -/
theorem waveRef_next_le (a : Byte) (ha : 128 ≤ a) (hlast : a < 255) :
    memRead waveRef (a + 1) ≤ memRead waveRef a := by
  rw [waveRef_mirror a (by bv_omega), waveRef_mirror (a + 1) (by bv_omega)]
  exact waveRef_mono_rise _ _ (by bv_omega) (by bv_omega)

/-- Settles O26: the listing's symmetry, rise and sum, and four of its entries; the rest follows from these. -/
theorem referenceTableShape : Obligations.ReferenceTableShape := by
  refine ⟨(waveRef_eq_zero_iff 0).mpr (.inl (by decide)), waveRef_eq_peak_iff, waveRef_eq_zero_iff, waveRef_mirror,
    fun a ha => waveRef_mono_rise a (a + 1) (by bv_omega) (by bv_omega), waveRef_next_le, ?_⟩
  rw [← waveRefBytes_sum, ← map_memRead_waveRef, List.map_map]
  rfl

end Sys2Proof
end

section
/-! PROOFS. The brightness scaler: the integer datapath is the floor of the exact rational value, the conversion to 8
bits never meets an overflow of a legal numerator, and the range, the monotonicity and the cost of truncation follow
stage by stage from the exact value (43_brightness_scaler.md R150 to R159). -/

namespace Sys2Proof

/-- The configuration with its truncation flags set (43_brightness_scaler.md R159). -/
def Config.withTruncation (c : Config) (damp blend : Bool) : Config :=
  { c with dampTrunc := damp, blendTrunc := blend }

namespace Machine

/-! ### A truncation under a flag (43_brightness_scaler.md R151, R152) -/

/-- A value whose fraction is dropped when the flag is set, as DAMP_TRUNC and BLEND_TRUNC have it. -/
def truncIf (flag : Bool) (x : ℚ) : ℚ := if flag then (⌊x⌋₊ : ℚ) else x

@[simp] theorem truncIf_false (x : ℚ) : truncIf false x = x := rfl
@[simp] theorem truncIf_true (x : ℚ) : truncIf true x = ⌊x⌋₊ := rfl

@[simp] theorem truncIf_natCast (flag : Bool) (n : ℕ) : truncIf flag n = n := by
  cases flag with
  | false => rfl
  | true => rw [truncIf_true, Nat.floor_natCast]

@[simp] theorem truncIf_zero (flag : Bool) : truncIf flag 0 = 0 := by exact_mod_cast truncIf_natCast flag 0

theorem truncIf_mono (flag : Bool) : Monotone (truncIf flag) := by
  cases flag with
  | false => exact monotone_id
  | true => exact Nat.mono_cast.comp Nat.floor_mono

theorem truncIf_le (flag : Bool) {x : ℚ} (hx : 0 ≤ x) : truncIf flag x ≤ x := by
  cases flag with
  | false => exact le_rfl
  | true => exact Nat.floor_le hx

/-- A truncation removes less than 1, and nothing without the flag. -/
theorem le_truncIf_add (flag : Bool) (x : ℚ) : x ≤ truncIf flag x + flag.toNat := by
  cases flag with
  | false => simp
  | true => simpa using (Nat.lt_floor_add_one x).le

theorem truncIf_nonneg (flag : Bool) {x : ℚ} (hx : 0 ≤ x) : 0 ≤ truncIf flag x :=
  truncIf_zero flag ▸ truncIf_mono flag hx

/-! ### The damped sample (43_brightness_scaler.md R151) -/

/-- The damped sample is the number of its fifths over 5, truncated under DAMP_TRUNC; in Diastole that is the sample. -/
theorem exactDamp_eq (c : Config) (sample : Byte) (ph : Phase) :
    exactDamp c sample ph = truncIf c.dampTrunc (dampedFifths sample ph / 5) := by
  cases ph with
  | diastole =>
    have hwhole : ((dampedFifths sample .diastole : ℕ) : ℚ) / 5 = sample.toNat := by simp [dampedFifths]
    rw [hwhole, truncIf_natCast]
    rfl
  | systole => simp [exactDamp, truncIf, dampedFifths]

/-- The damped sample of the datapath is the quotient of its fifths by 5 (43_brightness_scaler.md R156). -/
theorem dampedSample_eq (sample : Byte) (ph : Phase) : dampedSample sample ph = dampedFifths sample ph / 5 := by
  cases ph with
  | diastole => exact (Nat.mul_div_cancel_left _ (by decide)).symm
  | systole => rfl

theorem dampedFifths_mono (ph : Phase) {x y : Byte} (hxy : x ≤ y) : dampedFifths x ph ≤ dampedFifths y ph :=
  match ph with
  | .diastole => Nat.mul_le_mul_left 5 hxy
  | .systole => Nat.mul_le_mul_left 3 hxy

theorem dampedFifths_systole_le (sample : Byte) : dampedFifths sample .systole ≤ dampedFifths sample .diastole :=
  Nat.mul_le_mul_right _ (by decide)

theorem exactDamp_nonneg (c : Config) (sample : Byte) (ph : Phase) : 0 ≤ exactDamp c sample ph :=
  exactDamp_eq c sample ph ▸ truncIf_nonneg _ (by positivity)

/-- More fifths are not a smaller damped sample. -/
theorem exactDamp_le (c : Config) {x y : Byte} {ph ph' : Phase} (h : dampedFifths x ph ≤ dampedFifths y ph') :
    exactDamp c x ph ≤ exactDamp c y ph' := by
  rw [exactDamp_eq, exactDamp_eq]
  exact truncIf_mono _ (by gcongr)

@[simp] theorem exactDamp_zero (c : Config) (ph : Phase) : exactDamp c 0 ph = 0 := by
  have hnone : dampedFifths 0 ph = 0 := by cases ph <;> rfl
  rw [exactDamp_eq, hnone]
  simp

theorem exactDamp_le_255 (c : Config) (sample : Byte) (ph : Phase) : exactDamp c sample ph ≤ 255 :=
  exactDamp_le c (x := sample) (y := 255) (ph' := .diastole) (dampedFifths_le sample ph)

/-! ### The blended sample (43_brightness_scaler.md R152) -/

/-- The blend before its truncation: the convex combination of 255 and the damped sample. -/
def blendLine (c : Config) (sd : ℚ) : ℚ := 255 * baseline c + sd * (1 - baseline c)

theorem exactBlend_eq (c : Config) (sd : ℚ) : exactBlend c sd = truncIf c.blendTrunc (blendLine c sd) := rfl

@[simp] theorem blendLine_zero (c : Config) : blendLine c 0 = 255 * baseline c := by simp [blendLine]

@[simp] theorem blendLine_255 (c : Config) : blendLine c 255 = 255 := by
  unfold blendLine
  ring

@[simp] theorem exactBlend_255 (c : Config) : exactBlend c 255 = 255 := by
  rw [exactBlend_eq, blendLine_255]
  exact truncIf_natCast _ 255

/-! ### The conversion to 8 bits (43_brightness_scaler.md R155) -/

theorem conv8_toNat_of_le (mode : OvfMode) (d : Nat) (h : d ≤ 255) : (conv8 mode d).toNat = d := by
  rw [conv8_of_le mode d h, BitVec.toNat_ofNat, Nat.mod_eq_of_lt (Nat.lt_succ_of_le h)]

theorem conv8_toNat_of_gt (d : Nat) (h : 255 < d) :
    (conv8 .wrap d).toNat = d % 256 ∧ (conv8 .clamp d).toNat = 255 := by
  simp [conv8, h.not_ge]

/-! ### The blend under an admitted configuration: f lies in [0, 1] (00_scope.md R7) -/

section
variable (c : Config) (hc : c.admitted = true)
include hc

theorem fracDen_pos : 0 < c.fracDen := ((admitted_iff c).mp hc).2.2.1

theorem baseline_nonneg_le_one : 0 ≤ baseline c ∧ baseline c ≤ 1 := by
  obtain ⟨-, -, -, hbase, -⟩ := (admitted_iff c).mp hc
  exact ⟨by unfold baseline; positivity, div_le_one_of_le₀ (by exact_mod_cast hbase.le) (by positivity)⟩

theorem blendLine_mono : Monotone (blendLine c) := fun sd sd' h => by
  have hgain : 0 ≤ 1 - baseline c := sub_nonneg.mpr (baseline_nonneg_le_one c hc).2
  unfold blendLine
  gcongr

/-- The blend keeps at most the whole of a difference, its gain 1 - f being at most 1. -/
theorem blendLine_le_add {sd sd' k : ℚ} (hk : 0 ≤ k) (h : sd' ≤ sd + k) : blendLine c sd' ≤ blendLine c sd + k :=
  have hgain : 1 - baseline c ≤ 1 := sub_le_self 1 (baseline_nonneg_le_one c hc).1
  calc blendLine c sd' ≤ blendLine c (sd + k) := blendLine_mono c hc h
    _ = blendLine c sd + k * (1 - baseline c) := by unfold blendLine; ring
    _ ≤ blendLine c sd + k := by gcongr; exact mul_le_of_le_one_right hk hgain

theorem blendLine_nonneg {sd : ℚ} (h : 0 ≤ sd) : 0 ≤ blendLine c sd := by
  have hzero : 0 ≤ blendLine c 0 := by
    rw [blendLine_zero]
    exact mul_nonneg (by norm_num) (baseline_nonneg_le_one c hc).1
  exact hzero.trans (blendLine_mono c hc h)

theorem exactBlend_mono : Monotone (exactBlend c) := (truncIf_mono c.blendTrunc).comp (blendLine_mono c hc)

theorem exactBlend_nonneg {sd : ℚ} (h : 0 ≤ sd) : 0 ≤ exactBlend c sd :=
  truncIf_nonneg _ (blendLine_nonneg c hc h)

/-- The blend of a fraction n/q, over the common denominator q·D (43_brightness_scaler.md R156). -/
theorem blendLine_div (n q : ℕ) (hq : 0 < q) :
    blendLine c (n / q) = ((q * blendFloor c + n * blendGain c : ℕ) : ℚ) / (q * c.fracDen : ℕ) := by
  have hD : (c.fracDen : ℚ) ≠ 0 := by exact_mod_cast (fracDen_pos c hc).ne'
  have hgain : (blendGain c : ℚ) = c.fracDen - c.baseNum := by
    rw [eq_sub_iff_add_eq]
    exact_mod_cast (blendGain_add c hc).1
  push_cast [hgain, blendLine, baseline, blendFloor]
  field_simp

/-! ### The duty value (43_brightness_scaler.md R153, R154, R156) -/

/-- The duty value of a damped sample n/q, in natural numbers, with the truncation of the blend and without it. -/
theorem exactFloor_of_exactDamp (sample : Byte) (ph : Phase) (m n q : ℕ) (hq : 0 < q)
    (hdamp : exactDamp c sample ph = n / q) :
    exactFloor c sample ph m =
      if c.blendTrunc then (q * blendFloor c + n * blendGain c) / (q * c.fracDen) * m / c.fracDen
      else (q * blendFloor c + n * blendGain c) * m / (q * c.fracDen * c.fracDen) := by
  rw [exactFloor, exactDuty, hdamp, exactBlend_eq, blendLine_div c hc n q hq]
  cases c.blendTrunc with
  | true =>
    rw [truncIf_true, Nat.floor_div_eq_div, ← Nat.cast_mul, Nat.floor_div_eq_div, if_pos rfl]
  | false =>
    rw [truncIf_false, div_mul_eq_mul_div, div_div, ← Nat.cast_mul, ← Nat.cast_mul, Nat.floor_div_eq_div]
    rfl

/-- The datapath computes the duty value of the damped sample in ones under DAMP_TRUNC, and in fifths without it. -/
theorem dutyDatapath_eq_exactFloor (sample : Byte) (ph : Phase) (m : Nat) :
    dutyDatapath c sample ph m = exactFloor c sample ph m := by
  have hdamp := exactDamp_eq c sample ph
  cases hd : c.dampTrunc with
  | true =>
    rw [hd, truncIf_true, Nat.floor_div_ofNat, Nat.floor_natCast, ← dampedSample_eq] at hdamp
    rw [exactFloor_of_exactDamp c hc sample ph m (dampedSample sample ph) 1 one_pos (by simpa using hdamp)]
    cases hb : c.blendTrunc <;> simp [dutyDatapath, hd, hb]
  | false =>
    rw [exactFloor_of_exactDamp c hc sample ph m (dampedFifths sample ph) 5 (by decide) (by simpa [hd] using hdamp)]
    cases hb : c.blendTrunc <;> simp [dutyDatapath, hd, hb]

/-- The largest intermediate in ones (43_brightness_scaler.md R156). -/
theorem blended_mul_le (sample : Byte) (ph : Phase) {m : Nat} (hm : m ≤ c.fracDen) :
    (blendFloor c + dampedSample sample ph * blendGain c) * m ≤ 255 * c.fracDen ^ 2 :=
  calc (blendFloor c + dampedSample sample ph * blendGain c) * m
      ≤ 255 * c.fracDen * c.fracDen := Nat.mul_le_mul (blended_le c hc _ (dampedSample_le sample ph)) hm
    _ = 255 * c.fracDen ^ 2 := by ring

/-- The largest intermediate in fifths (43_brightness_scaler.md R156). -/
theorem blendedFifths_mul_le (sample : Byte) (ph : Phase) {m : Nat} (hm : m ≤ c.fracDen) :
    (5 * blendFloor c + dampedFifths sample ph * blendGain c) * m ≤ 1275 * c.fracDen ^ 2 := by
  have hfifths := Nat.mul_le_mul_right (blendGain c) (dampedFifths_le sample ph)
  have hblend := blended_le c hc 255 le_rfl
  calc (5 * blendFloor c + dampedFifths sample ph * blendGain c) * m
      ≤ 1275 * c.fracDen * c.fracDen := Nat.mul_le_mul (by omega) hm
    _ = 1275 * c.fracDen ^ 2 := by ring

/-! ### The duty value rises with the damped sample and with the numerator (43_brightness_scaler.md R157, R158) -/

theorem exactFloor_mono {x y : Byte} {ph ph' : Phase} {m k : Nat} (hdamp : exactDamp c x ph ≤ exactDamp c y ph')
    (hmk : m ≤ k) : exactFloor c x ph m ≤ exactFloor c y ph' k := by
  have hblend := exactBlend_mono c hc hdamp
  have hpos := exactBlend_nonneg c hc (exactDamp_nonneg c y ph')
  refine Nat.floor_mono ?_
  unfold exactDuty
  gcongr

/-- The full sample in Diastole with a multiplier of 1 gives 255, whatever the baseline (43_brightness_scaler.md R157). -/
theorem exactFloor_255 : exactFloor c 255 .diastole c.fracDen = 255 := by
  have hD : (c.fracDen : ℚ) ≠ 0 := by exact_mod_cast (fracDen_pos c hc).ne'
  have hdamp : exactDamp c 255 .diastole = 255 := rfl
  rw [exactFloor, exactDuty, hdamp, exactBlend_255, mul_div_cancel_right₀ _ hD]
  exact Nat.floor_ofNat 255

variable {m : Nat} (hm : m ≤ c.fracDen)
include hm

theorem exactFloor_le_255 (sample : Byte) (ph : Phase) : exactFloor c sample ph m ≤ 255 :=
  exactFloor_255 c hc ▸ exactFloor_mono c hc (exactDamp_le_255 c sample ph) hm

/-- With a legal numerator the duty value is its own conversion to 8 bits (43_brightness_scaler.md R155). -/
theorem scale_toNat (sample : Byte) (ph : Phase) : (scale c sample ph m).toNat = exactFloor c sample ph m := by
  rw [scale, dutyDatapath_eq_exactFloor c hc]
  exact conv8_toNat_of_le _ _ (exactFloor_le_255 c hc hm sample ph)

/-- At sample 0 the duty value is the multiplier's share of the floor brightness (43_brightness_scaler.md R157). -/
theorem scale_zero_toNat (ph : Phase) :
    (scale c 0 ph m).toNat = ⌊truncIf c.blendTrunc (255 * baseline c) * (m / c.fracDen)⌋₊ := by
  rw [scale_toNat c hc hm, exactFloor, exactDuty, exactDamp_zero, exactBlend_eq, blendLine_zero, mul_div_assoc]

theorem scale_zero_le (sample : Byte) (ph : Phase) : (scale c 0 ph m).toNat ≤ (scale c sample ph m).toNat := by
  rw [scale_toNat c hc hm, scale_toNat c hc hm]
  exact exactFloor_mono c hc (exactDamp_zero c ph ▸ exactDamp_nonneg c sample ph) le_rfl

end

/-- Settles O37: the datapath is the floor of the exact value, its intermediates bounded by the convex blend. -/
theorem datapathComputesTheExactScale : Obligations.DatapathComputesTheExactScale := by
  refine ⟨fun c sample ph m hc => dutyDatapath_eq_exactFloor c hc sample ph m, fun c sample ph m hc hm => ?_,
    by norm_num⟩
  have hones := blended_mul_le c hc sample ph hm
  have hfifths := blendedFifths_mul_le c hc sample ph hm
  have hbits : 1275 * c.fracDen ^ 2 < 2 ^ Nat.clog 2 (1275 * c.fracDen ^ 2 + 1) := Nat.le_pow_clog (by decide) _
  exact ⟨hones, hfifths, by omega, hfifths.trans_lt hbits⟩

/-- Settles O38: a legal numerator's duty value is at most 255, where both modes keep it. -/
theorem conversionToEightBits : Obligations.ConversionToEightBits := by
  refine ⟨conv8_toNat_of_le, conv8_toNat_of_gt, fun c sample ph m hc hm => ?_⟩
  have h255 : dutyDatapath c sample ph m ≤ 255 :=
    dutyDatapath_eq_exactFloor c hc sample ph m ▸ exactFloor_le_255 c hc hm sample ph
  refine ⟨h255, fun mode => ?_⟩
  rw [scale, scale, dutyDatapath_ovfMode, conv8_of_le _ _ h255, conv8_of_le _ _ h255]

/-- Settles O39: the upper bound is the value at the full sample, the lower bound the value at sample 0. -/
theorem dutyStaysInItsRange : Obligations.DutyStaysInItsRange := by
  intro c m hc _ hm
  have hfloor : (∀ sample ph,
      ⌊truncIf c.blendTrunc (255 * baseline c) * (m / c.fracDen)⌋₊ ≤ (scale c sample ph m).toNat) ∧
      ∀ ph, (scale c 0 ph m).toNat = ⌊truncIf c.blendTrunc (255 * baseline c) * (m / c.fracDen)⌋₊ :=
    ⟨fun sample ph => (scale_zero_toNat c hc hm ph).ge.trans (scale_zero_le c hc hm sample ph),
      scale_zero_toNat c hc hm⟩
  refine ⟨fun sample ph => ?_, ?_, fun hb => ?_, fun hb => ?_⟩
  · rw [scale_toNat c hc hm, dutyDatapath_eq_exactFloor c hc]
    exact ⟨exactFloor_le_255 c hc hm sample ph, rfl⟩
  · exact BitVec.eq_of_toNat_eq ((scale_toNat c hc le_rfl 255 .diastole).trans (exactFloor_255 c hc))
  · simpa only [hb, truncIf_false] using hfloor
  · simpa only [hb, truncIf_true] using hfloor

/-- `Scale` is ordered as the damped samples and the numerators are (43_brightness_scaler.md R158). -/
theorem scale_le (c : Config) (hc : c.admitted = true) {x y : Byte} {ph ph' : Phase} {m k : Nat}
    (h : dampedFifths x ph ≤ dampedFifths y ph') (hmk : m ≤ k) (hk : k ≤ c.fracDen) :
    scale c x ph m ≤ scale c y ph' k := by
  rw [BitVec.le_def, scale_toNat c hc (hmk.trans hk), scale_toNat c hc hk]
  exact exactFloor_mono c hc (exactDamp_le c h) hmk

/-- Settles O40: every stage of the scaler is monotone, and 3/5 of a sample is not above the sample. -/
theorem scalerIsMonotone : Obligations.ScalerIsMonotone := fun c hc =>
  ⟨fun _ _ ph _ hm hxy => scale_le c hc (dampedFifths_mono ph hxy) le_rfl hm,
    fun _ _ _ _ hk hmk => scale_le c hc le_rfl hmk hk,
    fun x _ hm => scale_le c hc (dampedFifths_systole_le x) le_rfl hm⟩

/-! ### What the truncations cost (43_brightness_scaler.md R159) -/

section
variable (c : Config) (damp blend : Bool) (sample : Byte) (ph : Phase)

theorem exactDamp_withTruncation :
    exactDamp (c.withTruncation damp blend) sample ph ≤ exactDamp (c.withTruncation false false) sample ph ∧
    exactDamp (c.withTruncation false false) sample ph ≤
      exactDamp (c.withTruncation damp blend) sample ph + damp.toNat := by
  rw [exactDamp_eq, exactDamp_eq]
  exact ⟨truncIf_le damp (by positivity), le_truncIf_add damp _⟩

/-- The truncation of the blend costs at most 1 on top of what its argument has lost. -/
theorem exactBlend_withTruncation (hc : c.admitted = true) {sd sd' k : ℚ} (hsd : 0 ≤ sd) (hk : 0 ≤ k)
    (hle : sd ≤ sd') (hlt : sd' ≤ sd + k) :
    exactBlend (c.withTruncation damp blend) sd ≤ exactBlend (c.withTruncation false false) sd' ∧
    exactBlend (c.withTruncation false false) sd' ≤
      exactBlend (c.withTruncation damp blend) sd + (k + blend.toNat) := by
  have hup := blendLine_le_add c hc hk hlt
  have hcost := le_truncIf_add blend (blendLine c sd)
  refine ⟨(truncIf_le blend (blendLine_nonneg c hc hsd)).trans (blendLine_mono c hc hle), ?_⟩
  change blendLine c sd' ≤ truncIf blend (blendLine c sd) + (k + blend.toNat)
  linarith

/-- A multiplier of at most 1 and the floor keep a loss of at most k at most k. -/
theorem floor_scaled_le {x y : ℚ} {m D k : ℕ} (hx : 0 ≤ x) (hxy : x ≤ y) (hyx : y ≤ x + k) (hm : m ≤ D) :
    ⌊x * m / D⌋₊ ≤ ⌊y * m / D⌋₊ ∧ ⌊y * m / D⌋₊ ≤ ⌊x * m / D⌋₊ + k := by
  have hfactor : (m : ℚ) / D ≤ 1 := div_le_one_of_le₀ (by exact_mod_cast hm) (by positivity)
  refine ⟨Nat.floor_mono (by gcongr), ?_⟩
  rw [← Nat.floor_add_natCast (by positivity)]
  refine Nat.floor_mono ?_
  calc y * m / D ≤ (x + k) * m / D := by gcongr
    _ = x * m / D + k * (m / D) := by ring
    _ ≤ x * m / D + k := by gcongr; exact mul_le_of_le_one_right (by positivity) hfactor

/-- A result with truncations is not above the one with neither, and at most the number of truncations below it. -/
theorem scale_withTruncation (hc : c.admitted = true) {m : Nat} (hm : m ≤ c.fracDen) :
    (scale (c.withTruncation damp blend) sample ph m).toNat ≤
      (scale (c.withTruncation false false) sample ph m).toNat ∧
    (scale (c.withTruncation false false) sample ph m).toNat ≤
      (scale (c.withTruncation damp blend) sample ph m).toNat + (damp.toNat + blend.toNat) := by
  rw [scale_toNat (c.withTruncation damp blend) hc hm, scale_toNat (c.withTruncation false false) hc hm]
  obtain ⟨hdle, hdlt⟩ := exactDamp_withTruncation c damp blend sample ph
  have hpos := exactDamp_nonneg (c.withTruncation damp blend) sample ph
  obtain ⟨hble, hblt⟩ := exactBlend_withTruncation c damp blend hc hpos (Nat.cast_nonneg _) hdle hdlt
  exact floor_scaled_le (exactBlend_nonneg (c.withTruncation damp blend) hc hpos) hble (by exact_mod_cast hblt) hm

end

/-- Settles O41: the three settings with a truncation, each against the one with neither. -/
theorem truncationCostsAtMostOneEach : Obligations.TruncationCostsAtMostOneEach := fun c sample ph _ hc hm =>
  ⟨scale_withTruncation c true false sample ph hc hm, scale_withTruncation c false true sample ph hc hm,
    scale_withTruncation c true true sample ph hc hm⟩

end Machine
end Sys2Proof
end

section
/-! PROOFS. PWM output: each operation's write to the ports' registers, a run of the PWM stage inside one period, and
the edge that ends the period (44_pwm_output.md R170 to R178). -/

namespace Sys2Proof.Machine

/-! ### The duty port and the write strobe (44_pwm_output.md R170, R171) -/

/-- Settles O42: IDLE and a counting TICK keep OUT, which leaves RESET and a recomputation TICK. -/
theorem dutyPortHoldsBetweenRecomputations : Obligations.DutyPortHoldsBetweenRecomputations := by
  refine ⟨fun s => rfl, fun i s t h hchanged => ?_⟩
  rcases exec_next_cases i s t h with ⟨-, -, rfl⟩ | ⟨-, -, -, rfl⟩ | ⟨rfl, -, hr, -⟩ | ⟨p, rfl, -, rfl⟩
  · exact absurd rfl hchanged
  · exact absurd rfl hchanged
  · exact .inr ⟨rfl, (recompute_iff s).mp hr⟩
  · exact .inl ⟨⟨p, rfl⟩, rfl⟩

/-- Every operation writes WSTB, and TICK alone sets it (40_operations.md R101 to R103). -/
theorem exec_wstb (i : Instr) (s t : State) (h : exec i s = .next t) : t.wstb = decide (i = .tick) := by
  rcases exec_next_cases i s t h with ⟨rfl, -, rfl⟩ | ⟨rfl, -, -, rfl⟩ | ⟨rfl, -, -, m, -, rfl⟩ | ⟨p, rfl, -, rfl⟩ <;>
    rfl

/-- Once a RESET has happened the ports are observed (10_state.md R41). -/
theorem observe_of_running (s : State) (h : s.life = .running) : s.observe = some ⟨s.duty, s.dutyWr, s.pwmOut⟩ := by
  simp [State.observe, h]

/-- Settles O43, by induction on the operations: each goes on, into a ready state. -/
theorem writeStrobeFollowsEveryTick : Obligations.WriteStrobeFollowsEveryTick := by
  intro s ops hs
  induction ops generalizing s with
  | nil => rfl
  | cons i rest ih =>
    obtain ⟨t, hexec⟩ := ready_exec s hs i
    have hready := exec_next_ready i s t hexec
    have hstrobe : t.dutyWr = decide (i = .tick) := exec_wstb i s t hexec
    have htail := ih t hready
    rw [portTrace] at htail ⊢
    rw [statesAlong_cons_next i rest s t hexec, List.map_cons, List.map_cons, List.map_cons, htail,
      observe_of_running t hready.2.1, Option.map_some, hstrobe]

/-! ### One step of the PWM stage (44_pwm_output.md R173, R175) -/

/-- An operation that is no RESET performs `PwmStep()` (44_pwm_output.md R173). -/
theorem exec_pwmStep (i : Instr) (s t : State) (h : exec i s = .next t) (hi : isSessionOp i = true) :
    t.pcnt = pwmCount s ∧ t.dact = pwmShadow s := by
  rcases exec_next_cases i s t h with ⟨-, -, rfl⟩ | ⟨-, -, -, rfl⟩ | ⟨-, -, -, m, -, rfl⟩ | ⟨p, rfl, -, -⟩
  · exact ⟨rfl, rfl⟩
  · exact ⟨rfl, rfl⟩
  · exact ⟨rfl, rfl⟩
  · exact nomatch hi

/-- At a period's last position, `PwmStep()` starts the next period with OUT (44_pwm_output.md R174). -/
theorem exec_pwmStep_boundary (i : Instr) (s t : State) (h : exec i s = .next t) (hi : isSessionOp i = true)
    (hlast : s.pcnt = 254) : t.pcnt = 0 ∧ t.dact = s.out := by
  obtain ⟨hpcnt, hdact⟩ := exec_pwmStep i s t h hi
  exact ⟨hpcnt.trans (if_pos hlast), hdact.trans (if_pos hlast)⟩

/-- Inside a period, `PwmStep()` counts and keeps the duty in force (44_pwm_output.md R173). -/
theorem exec_pwmStep_inside (i : Instr) (s t : State) (h : exec i s = .next t) (hi : isSessionOp i = true)
    (hinside : s.pcnt ≠ 254) : t.pcnt = s.pcnt + 1 ∧ t.dact = s.dact := by
  obtain ⟨hpcnt, hdact⟩ := exec_pwmStep i s t h hi
  exact ⟨hpcnt.trans (if_neg hinside), hdact.trans (pwmShadow_of_pcnt_ne s hinside)⟩

/-- A ready state stands at a position of the period (10_state.md R33 INV4). -/
theorem State.ready.pcnt_le {s : State} (hs : s.ready) : s.pcnt.toNat ≤ 254 := by
  obtain ⟨-, -, hinv⟩ := hs
  obtain ⟨-, -, -, hpcnt⟩ := (inv_iff s).mp hinv
  exact hpcnt

/-- Settles O44: `PwmStep()` at the boundary and inside the period; RESET's transfers. -/
theorem pwmStepIsTheSameForIdleAndTick : Obligations.PwmStepIsTheSameForIdleAndTick := by
  refine ⟨fun s i hs hi => ?_, fun s t p h => ?_⟩
  · have hsession : isSessionOp i = true := by rcases hi with rfl | rfl <;> rfl
    obtain ⟨t, hexec⟩ := ready_exec s hs i
    exact ⟨t, hexec, exec_pwmStep_boundary i s t hexec hsession, exec_pwmStep_inside i s t hexec hsession,
      (exec_next_ready i s t hexec).pcnt_le⟩
  · obtain ⟨-, rfl⟩ := (exec_reset_next p s t).mp h
    exact ⟨rfl, rfl⟩

/-- Settles O46: the comparison of the two registers is unsigned. -/
theorem compareOutput : Obligations.CompareOutput := fun s => by
  rw [State.pwmOut, decide_eq_true_iff, BitVec.lt_def]

/-- A duty of 0 in force keeps the output low (44_pwm_output.md R176). -/
theorem pwmOut_of_dact_eq_zero (s : State) (h : s.dact = 0) : s.pwmOut = false := by
  rw [Bool.eq_false_iff, Ne, compareOutput s, h]
  exact Nat.not_lt_zero _

/-! ### A run inside one period, and the edge that ends it (44_pwm_output.md R174, R177) -/

/-- A session run that stays inside the period goes on: PCNT counts its edges, and one duty value is in force. -/
theorem runOps_inside_period (ops : List Instr) (s : State) (hs : s.ready) (hops : sessionOps ops = true)
    (hroom : s.pcnt.toNat + ops.length ≤ 254) :
    ∃ t, runOps ops s = .next t ∧ t.pcnt.toNat = s.pcnt.toNat + ops.length ∧ t.dact = s.dact ∧
      (∀ v ∈ statesAlong ops s, v.dact = s.dact) ∧
      (statesAlong ops s).map (fun v => v.pcnt.toNat) = List.range' (s.pcnt.toNat + 1) ops.length := by
  induction ops generalizing s with
  | nil => exact ⟨s, rfl, rfl, rfl, nofun, rfl⟩
  | cons i rest ih =>
    rw [List.length_cons] at hroom ⊢
    obtain ⟨hi, hrest⟩ := Bool.and_eq_true_iff.mp hops
    obtain ⟨u, hexec⟩ := ready_exec s hs i
    obtain ⟨hpcnt, hdact⟩ := exec_pwmStep_inside i s u hexec hi (by bv_omega)
    have hcount : u.pcnt.toNat = s.pcnt.toNat + 1 := by rw [hpcnt]; bv_omega
    obtain ⟨t, hrun, htpcnt, htdact, halong, hpositions⟩ := ih u (exec_next_ready i s u hexec) hrest (by omega)
    rw [runOps_cons_next i rest s u hexec, statesAlong_cons_next i rest s u hexec]
    refine ⟨t, hrun, by omega, htdact.trans hdact, List.forall_mem_cons.mpr ⟨hdact, fun v hv => ?_⟩, ?_⟩
    · exact (halong v hv).trans hdact
    · rw [List.map_cons, hpositions, hcount, List.range'_succ]

/-- The session run to the period's last position, and the edge after it: it loads the OUT held before it. -/
theorem runOps_to_boundary (ops : List Instr) (last : Instr) (s : State) (hs : s.ready) (hops : sessionOps ops = true)
    (hlast : isSessionOp last = true) (hlength : s.pcnt.toNat + ops.length = 254) :
    ∃ t u, runOps ops s = .next t ∧ exec last t = .next u ∧ (∀ v ∈ statesAlong ops s, v.dact = s.dact) ∧
      t.pcnt = 254 ∧ u.pcnt = 0 ∧ u.dact = t.out := by
  obtain ⟨t, hrun, hpcnt, -, halong, -⟩ := runOps_inside_period ops s hs hops hlength.le
  obtain ⟨u, hexec⟩ := ready_exec t (runOps_next_ready ops s t hs hrun) last
  have hend : t.pcnt = 254 := BitVec.eq_of_toNat_eq (hpcnt.trans hlength)
  obtain ⟨hzero, hload⟩ := exec_pwmStep_boundary last t u hexec hlast hend
  exact ⟨t, u, hrun, hexec, halong, hend, hzero, hload⟩

/-- Settles O45: from PCNT = 0 the boundary is 254 edges and one more away. -/
theorem periodUsesOneDutyValue : Obligations.PeriodUsesOneDutyValue := by
  intro s ops last hs h0 hops hlast hlength
  exact runOps_to_boundary ops last s hs hops hlast (by simp [h0, hlength])

/-- Settles O48: the run to the boundary, then a run inside the period it starts; RESET starts a period with duty 0. -/
theorem dutyReachesTheWaveformAtTheNextBoundary : Obligations.DutyReachesTheWaveformAtTheNextBoundary := by
  refine ⟨fun s ops last more hs hops hlast hmore hlength hroom => ?_, fun s p ops hc hops hroom => ?_⟩
  · have hle := hs.pcnt_le
    obtain ⟨t, u, hrun, hexec, halong, -, hzero, hload⟩ := runOps_to_boundary ops last s hs hops hlast (by omega)
    obtain ⟨v, hrest, -, hkept, -⟩ :=
      runOps_inside_period more u (exec_next_ready last t u hexec) hmore (by simpa [hzero] using hroom)
    exact ⟨t, u, v, hrun, hexec, hrest, halong, hload, hzero, hkept.trans hload⟩
  · have hexec := exec_reset p s hc
    obtain ⟨t, hrun, -, -, halong, -⟩ :=
      runOps_inside_period ops (resetEffect p s) (exec_next_ready _ _ _ hexec) hops (by simpa using hroom)
    rw [runOps_cons_next _ ops s _ hexec, statesAlong_cons_next _ ops s _ hexec]
    refine ⟨t, hrun, List.forall_mem_cons.mpr ⟨pwmOut_of_dact_eq_zero _ rfl, fun v hv => ?_⟩⟩
    exact pwmOut_of_dact_eq_zero v (halong v hv)

/-! ### The duty fraction (44_pwm_output.md R176) -/

/-- Among the first n numbers, those below d are the first d, if there are as many. -/
theorem countP_lt_range (d n : Nat) : (List.range n).countP (fun k => decide (k < d)) = min d n := by
  induction n with
  | zero => simp
  | succ n ih =>
    rw [List.range_succ, List.countP_append, ih, List.countP_singleton]
    by_cases hlt : n < d <;> simp [hlt] <;> omega

/-- Over the 255 positions of a period, the output is high for exactly DACT of them. -/
theorem countP_pwmOut_period (ops : List Instr) (s : State) (hs : s.ready) (h0 : s.pcnt = 0)
    (hops : sessionOps ops = true) (hlength : ops.length = 254) :
    (s :: statesAlong ops s).length = 255 ∧ (s :: statesAlong ops s).countP State.pwmOut = s.dact.toNat := by
  obtain ⟨-, -, -, -, halong, hpositions⟩ := runOps_inside_period ops s hs hops (by simp [h0, hlength])
  have hperiod : (s :: statesAlong ops s).map (fun v => v.pcnt.toNat) = List.range 255 := by
    rw [List.map_cons, hpositions, h0, hlength, List.range_eq_range']
    rfl
  have hcompare : ∀ v ∈ s :: statesAlong ops s, v.pwmOut = true ↔ decide (v.pcnt.toNat < s.dact.toNat) = true :=
    List.forall_mem_cons.mpr ⟨by simp [compareOutput s], fun v hv => by simp [compareOutput v, halong v hv]⟩
  constructor
  · simpa using congrArg List.length hperiod
  · calc (s :: statesAlong ops s).countP State.pwmOut
        = (s :: statesAlong ops s).countP (fun v => decide (v.pcnt.toNat < s.dact.toNat)) := List.countP_congr hcompare
      _ = (List.range 255).countP (fun k => decide (k < s.dact.toNat)) := by rw [← hperiod, List.countP_map]; rfl
      _ = s.dact.toNat := by rw [countP_lt_range]; omega

/-- Settles O47: the count of high states, which for the two extreme duties is none and all of them. -/
theorem dutyFractionOfAPeriod : Obligations.DutyFractionOfAPeriod := by
  intro s ops hs h0 hops hlength
  obtain ⟨hstates, hhigh⟩ := countP_pwmOut_period ops s hs h0 hops hlength
  refine ⟨hstates, hhigh, fun hoff => ?_, fun hfull => List.countP_eq_length.mp ?_⟩
  · have hnone : (s :: statesAlong ops s).countP State.pwmOut = 0 := by rw [hhigh, hoff]; rfl
    simpa using List.countP_eq_zero.mp hnone
  · rw [hhigh, hstates, hfull]
    rfl

/-! ### Nothing outside the PWM stage reads it (44_pwm_output.md R178) -/

/-- Runs of the same operations from states with the same configuration, engine and strobe go on and end in the same. -/
theorem runOps_engine_congr (ops : List Instr) (s u : State) (hs : s.ready) (hu : u.ready) (hcfg : s.cfg = u.cfg)
    (hengine : s.engine = u.engine) (hwstb : s.wstb = u.wstb) :
    ∃ t v, runOps ops s = .next t ∧ runOps ops u = .next v ∧ t.engine = v.engine ∧ t.wstb = v.wstb := by
  induction ops generalizing s u with
  | nil => exact ⟨s, u, rfl, rfl, hengine, hwstb⟩
  | cons i rest ih =>
    obtain ⟨s', hs'⟩ := ready_exec s hs i
    obtain ⟨u', hu'⟩ := ready_exec u hu i
    obtain ⟨hcfgs, -, -⟩ := exec_keeps_cfg_and_inputs i s s' hs'
    obtain ⟨hcfgu, -, -⟩ := exec_keeps_cfg_and_inputs i u u' hu'
    rw [runOps_cons_next i rest s s' hs', runOps_cons_next i rest u u' hu']
    exact ih s' u' (exec_next_ready i s s' hs') (exec_next_ready i u u' hu') (hcfgs.trans (hcfg.trans hcfgu.symm))
      (exec_engine_congr s u hcfg hengine i s' u' hs' hu')
      ((exec_wstb i s s' hs').trans (exec_wstb i u u' hu').symm)

/-- A ready state stays ready with any duty in force at any position of the period. -/
theorem State.ready.withPwm {s : State} (hs : s.ready) (x y : Byte) (hx : x.toNat ≤ 254) :
    State.ready { s with pcnt := x, dact := y } := by
  obtain ⟨hc, hlife, hinv⟩ := hs
  obtain ⟨hival, htcnt, hpsel, -⟩ := (inv_iff s).mp hinv
  exact ⟨hc, hlife, (inv_iff _).mpr ⟨hival, htcnt, hpsel, hx⟩⟩

/-- Settles O49: the two states agree on the configuration, the engine and the strobe. -/
theorem pwmStageIsReadByNoEngineRegister : Obligations.PwmStageIsReadByNoEngineRegister := by
  intro s x y ops hs hx
  obtain ⟨t, u, ht, hu, hengine, hwstb⟩ := runOps_engine_congr ops s _ hs (hs.withPwm x y hx) rfl rfl rfl
  exact ⟨t, u, ht, hu, hengine, congrArg Engine.out hengine, hwstb⟩

end Sys2Proof.Machine
end

section
/-! PROOFS. Exceptions: the outcomes of a step, by the configuration and the state it starts from, and of building an
instance (60_exceptions.md R212). -/

namespace Sys2Proof.Machine

/-- Ready is what IDLE and TICK are admitted from, in an admitted configuration (40_operations.md R100). -/
theorem ready_iff_admitsAll (s : State) : s.ready ↔ s.cfg.admitted = true ∧ s.admitsAll = true := by
  simp [State.ready, State.admitsAll]

/-- In an admitted configuration an operation goes on or is refused for its state: a ready state refuses nothing, and
any other refuses IDLE and TICK but not RESET (40_operations.md R100, R101). -/
theorem exec_outcome_of_admitted (i : Instr) (s : State) (hc : s.cfg.admitted = true) :
    (∃ t, exec i s = .next t) ∨ exec i s = .refused .illegalState := by
  cases hall : s.admitsAll with
  | true => exact .inl (ready_exec s ((ready_iff_admitsAll s).mpr ⟨hc, hall⟩) i)
  | false =>
    obtain ⟨hidle, htick⟩ := exec_idle_tick_notAdmitted s hc hall
    cases i with
    | idle => exact .inr hidle
    | tick => exact .inr htick
    | reset p => exact .inl ⟨_, exec_reset p s hc⟩

/-- In an illegal configuration every step is refused (00_scope.md R8; log 11). -/
theorem step_illegalConfig (s : State) (hc : s.cfg.admitted = false) : step s = .refused .illegalConfig :=
  exec_illegalConfig _ _ (by rwa [advancePins_cfg])

/-- In an admitted configuration a step goes on or is refused for its state. -/
theorem step_outcome_of_admitted (s : State) (hc : s.cfg.admitted = true) :
    (∃ t, step s = .next t) ∨ step s = .refused .illegalState :=
  exec_outcome_of_admitted _ _ (by rwa [advancePins_cfg])

/-- An instance of an admitted configuration starts in its power-on state (00_scope.md R14). -/
theorem buildInstance_of_admitted (c : Config) (contents : State) (hc : c.admitted = true) :
    buildInstance c contents = .next (State.powerOn c contents) := if_pos hc

/-- No instance of an illegal configuration is built (00_scope.md R8). -/
theorem buildInstance_illegalConfig (c : Config) (contents : State) (hc : c.admitted = false) :
    buildInstance c contents = .refused .illegalConfig := if_neg (Bool.eq_false_iff.mp hc)

/-- Settles O13: only an illegal configuration is refused as one, at a step as at the building of an instance. -/
theorem outcomesAreNextOrTheTwoRefusals : Obligations.OutcomesAreNextOrTheTwoRefusals := by
  refine ⟨fun s => ?_, fun c contents => ?_⟩
  · cases hc : s.cfg.admitted with
    | true => exact (step_outcome_of_admitted s hc).imp_right .inl
    | false => exact .inr (.inr ⟨rfl, step_illegalConfig s hc⟩)
  · cases hc : c.admitted with
    | true => exact .inl ⟨rfl, buildInstance_of_admitted c contents hc⟩
    | false => exact .inr ⟨rfl, buildInstance_illegalConfig c contents hc⟩

end Sys2Proof.Machine
end

section
/-! PROOFS. Reset and hazards: a RESET forgets every operation before it, so a held reset depends on its last index, a
mid-session RESET restarts the heartbeat and power-on contents have no effect; a session keeps its preset index; every
edge whose word has `tick` and not `rst` is one TICK (70_reset_and_hazards.md R230 to R232, R240, R242). -/

namespace Sys2Proof.Machine

/-! ### Runs that go on -/

/-- A run that goes on goes on at its first operation and from there. -/
theorem runOps_cons_eq_next (i : Instr) (rest : List Instr) (s t : State) :
    runOps (i :: rest) s = .next t ↔ ∃ u, exec i s = .next u ∧ runOps rest u = .next t := by
  cases hexec : exec i s with
  | next u => simp [runOps_cons_next i rest s u hexec]
  | fault f => exact absurd hexec (exec_not_fault i s f)
  | refused r => simp [runOps_cons_refused i rest s r hexec]

/-- Every run of operations from a ready state goes on (40_operations.md R100). -/
theorem ready_runOps (ops : List Instr) (s : State) (hs : s.ready) : ∃ t, runOps ops s = .next t := by
  induction ops generalizing s with
  | nil => exact ⟨s, rfl⟩
  | cons i rest ih =>
    obtain ⟨u, hexec⟩ := ready_exec s hs i
    rw [runOps_cons_next i rest s u hexec]
    exact ih u (exec_next_ready i s u hexec)

/-- A run writes neither the configuration nor what the host drives (10_state.md R22). -/
theorem runOps_keeps_cfg_and_inputs (ops : List Instr) (s t : State) (h : runOps ops s = .next t) :
    t.cfg = s.cfg ∧ t.pins = s.pins ∧ t.stimulus = s.stimulus := by
  induction ops generalizing s with
  | nil => cases h; exact ⟨rfl, rfl, rfl⟩
  | cons i rest ih =>
    obtain ⟨u, hexec, hrest⟩ := (runOps_cons_eq_next i rest s t).mp h
    obtain ⟨hcfg, hpins, hstimulus⟩ := exec_keeps_cfg_and_inputs i s u hexec
    obtain ⟨hcfg', hpins', hstimulus'⟩ := ih u hrest
    exact ⟨hcfg'.trans hcfg, hpins'.trans hpins, hstimulus'.trans hstimulus⟩

/-- Without RESET the preset index stays (70_reset_and_hazards.md R237). -/
theorem runOps_session_psel (ops : List Instr) (s t : State) (h : runOps ops s = .next t)
    (hops : sessionOps ops = true) : t.psel = s.psel := by
  induction ops generalizing s with
  | nil => cases h; rfl
  | cons i rest ih =>
    obtain ⟨u, hexec, hrest⟩ := (runOps_cons_eq_next i rest s t).mp h
    obtain ⟨hi, hsession⟩ := (sessionOps_cons i rest).mp hops
    have hnoReset : ∀ p, i ≠ .reset p := by rcases hi with rfl | rfl <;> exact nofun
    obtain ⟨-, -, -, -, hframe⟩ := onlyTheNamedOperationsWriteARegister i s u hexec
    obtain ⟨-, hpsel, -⟩ := hframe hnoReset
    exact (ih u hrest hsession).trans hpsel

/-! ### A RESET forgets what was before it (70_reset_and_hazards.md R231, R242) -/

/-- RESET reads its index, the configuration and nothing else; it leaves what the host drives (40_operations.md
R101). -/
theorem resetEffect_congr (p : Byte) (s u : State) (hcfg : s.cfg = u.cfg) (hpins : s.pins = u.pins)
    (hstimulus : s.stimulus = u.stimulus) : resetEffect p s = resetEffect p u := by
  simp only [resetEffect, hcfg, hpins, hstimulus]

/-- A RESET after a run that goes on, and all that follows it, are as if the run had not been. -/
theorem runOps_append_reset (before after : List Instr) (p : Byte) (s u : State) (hc : s.cfg.admitted = true)
    (h : runOps before s = .next u) : runOps (before ++ .reset p :: after) s = runOps (.reset p :: after) s := by
  obtain ⟨hcfg, hpins, hstimulus⟩ := runOps_keeps_cfg_and_inputs before s u h
  have hu : u.cfg.admitted = true := hcfg ▸ hc
  rw [runOps_append before _ s u h, runOps_cons_next _ after u _ (exec_reset p u hu),
    runOps_cons_next _ after s _ (exec_reset p s hc), resetEffect_congr p u s hcfg hpins hstimulus]

/-- Every run that starts with a RESET goes on, in an admitted configuration (40_operations.md R101). -/
theorem runOps_reset_cons (q : Byte) (ops : List Instr) (s : State) (hc : s.cfg.admitted = true) :
    ∃ t, runOps (.reset q :: ops) s = .next t := by
  have hexec := exec_reset q s hc
  rw [runOps_cons_next _ ops s _ hexec]
  exact ready_runOps ops _ (exec_next_ready _ s _ hexec)

/-- A held reset goes on at each of its edges. -/
theorem runOps_resets (held : List Byte) (s : State) (hc : s.cfg.admitted = true) :
    ∃ t, runOps (held.map Instr.reset) s = .next t := by
  cases held with
  | nil => exact ⟨s, rfl⟩
  | cons q rest => exact runOps_reset_cons q (rest.map Instr.reset) s hc

/-- RESET is a run of one edge. -/
theorem runOps_single_reset (p : Byte) (s : State) (hc : s.cfg.admitted = true) :
    runOps [.reset p] s = .next (resetEffect p s) :=
  runOps_cons_next _ [] s _ (exec_reset p s hc)

/-- After each edge of a held reset the three ports are 0. -/
theorem portTrace_resets (held : List Byte) (s : State) (hc : s.cfg.admitted = true) :
    portTrace (held.map Instr.reset) s = List.replicate held.length (some ⟨0, false, false⟩) := by
  induction held generalizing s with
  | nil => rfl
  | cons q rest ih =>
    have hports : (resetEffect q s).observe = some ⟨0, false, false⟩ := rfl
    have htail := ih (resetEffect q s) hc
    rw [portTrace] at htail ⊢
    rw [List.map_cons, statesAlong_cons_next _ _ s _ (exec_reset q s hc), List.map_cons, hports, htail,
      List.length_cons, List.replicate_succ]

/-- Settles O16: the last RESET forgets the held ones, and each of them clears the ports. -/
theorem heldResetDependsOnTheLastIndex : Obligations.HeldResetDependsOnTheLastIndex := by
  intro s held p hc
  obtain ⟨u, hheld⟩ := runOps_resets held s hc
  have hedges : held.map Instr.reset ++ [.reset p] = (held ++ [p]).map Instr.reset := by simp
  refine ⟨resetEffect p s, exec_reset p s hc, ?_, ?_⟩
  · rw [runOps_append_reset _ [] p s u hc hheld, runOps_single_reset p s hc]
  · rw [hedges, portTrace_resets (held ++ [p]) s hc, List.length_append, List.length_singleton]

/-- Settles O17: a session after a RESET goes on, so the next RESET forgets it. -/
theorem midSessionResetRestarts : Obligations.MidSessionResetRestarts := by
  intro s q p before hc _
  obtain ⟨u, hbefore⟩ := runOps_reset_cons q before s hc
  refine ⟨⟨resetEffect p s, ?_, rfl, rfl, rfl, rfl, rfl⟩, fun after => ?_⟩
  · rw [runOps_append_reset _ [] p s u hc hbefore, runOps_single_reset p s hc]
  · exact runOps_append_reset _ after p s u hc hbefore

/-! ### Power-on and a session by the host's contract (70_reset_and_hazards.md R230, R232) -/

/-- RESET of the power-on state does not depend on the registers' contents (10_state.md R39). -/
theorem exec_reset_powerOn (p : Byte) (c : Config) (contents other : State) (hc : c.admitted = true)
    (hpins : other.pins = contents.pins) (hstimulus : other.stimulus = contents.stimulus) :
    exec (.reset p) (State.powerOn c other) = .next (resetEffect p (State.powerOn c contents)) := by
  rw [← resetEffect_congr p (State.powerOn c other) (State.powerOn c contents) rfl hpins hstimulus]
  exact exec_reset p (State.powerOn c other) hc

/-- Settles O18: the power-on state is unreset, and RESET reads none of its registers. -/
theorem powerOnAdmitsOnlyReset : Obligations.PowerOnAdmitsOnlyReset := by
  intro c contents hc
  obtain ⟨hidle, htick⟩ := exec_idle_tick_notAdmitted (State.powerOn c contents) hc (admitsAll_of_unreset _ rfl)
  refine ⟨hidle, htick, rfl, fun p => ?_⟩
  have hinv : (resetEffect p (State.powerOn c contents)).inv = true := resetEffect_inv p (State.powerOn c contents) hc
  exact ⟨_, exec_reset_powerOn p c contents contents hc rfl rfl, rfl, rfl, rfl, rfl, rfl, rfl, rfl, rfl, rfl, rfl, hinv,
    fun other => exec_reset_powerOn p c contents other hc⟩

/-- An index in range is latched as it is (40_operations.md R101). -/
theorem resolvePreset_of_lt (c : Config) (p : Byte) (h : p.toNat < c.presetCount) : resolvePreset c p = p := if_pos h

/-- From any state a host session goes on and ends ready: its last RESET edge forgets the earlier ones and latches the
index, which the session keeps. -/
theorem runOps_hostSession (s : State) (p : Byte) (ops : List Instr) (hc : s.cfg.admitted = true)
    (h : HostSession s.cfg p ops) : ∃ t, runOps ops s = .next t ∧ t.psel = p ∧ t.ready := by
  obtain ⟨hp, held, session, rfl, hsession⟩ := h
  have hexec : exec (.reset p) s = .next (resetEffect p s) := exec_reset p s hc
  have hready : (resetEffect p s).ready := exec_next_ready _ s _ hexec
  obtain ⟨u, hheld⟩ := runOps_resets held s hc
  obtain ⟨t, hrun⟩ := ready_runOps session (resetEffect p s) hready
  refine ⟨t, ?_, ?_, runOps_next_ready session _ t hready hrun⟩
  · rw [runOps_append_reset _ session p s u hc hheld, runOps_cons_next _ session s _ hexec, hrun]
  · exact (runOps_session_psel session _ t hrun hsession).trans (resolvePreset_of_lt s.cfg p hp)

/-- Settles O36: a host session from the power-on state. -/
theorem hostSessionKeepsItsPreset : Obligations.HostSessionKeepsItsPreset := by
  intro c contents p ops hc hsession
  obtain ⟨t, hrun, hpsel, -, hlife, hinv⟩ := runOps_hostSession (State.powerOn c contents) p ops hc hsession
  exact ⟨t, hrun, hpsel, hlife, hinv⟩

/-! ### Tick counting (70_reset_and_hazards.md R240) -/

/-- Without `rst` a word is a TICK or an IDLE by its `tick` (30_encoding.md R73). -/
theorem decodeControl_of_not_rst (cw : ControlWord) (h : cw.getLsbD 1 = false) :
    decodeControl cw = if cw.getLsbD 0 then .tick else .idle := by
  have hrst : rstField cw = false := h
  rw [decodeControl, hrst]
  rfl

/-- Words without `rst` decode to a sequence without RESET. -/
theorem sessionOps_map_decodeControl (ws : List ControlWord) (h : ∀ cw ∈ ws, cw.getLsbD 1 = false) :
    sessionOps (ws.map decodeControl) = true := by
  rw [sessionOps, List.all_map, List.all_eq_true]
  intro cw hcw
  rw [Function.comp_apply, decodeControl_of_not_rst cw (h cw hcw)]
  cases cw.getLsbD 0 <;> rfl

/-- Among words without `rst`, those with `tick` are the TICKs. -/
theorem tickCount_map_decodeControl (ws : List ControlWord) (h : ∀ cw ∈ ws, cw.getLsbD 1 = false) :
    tickCount (ws.map decodeControl) = ws.countP fun cw => cw.getLsbD 0 := by
  rw [tickCount, List.count, List.countP_map]
  refine List.countP_congr fun cw hcw => ?_
  rw [Function.comp_apply, decodeControl_of_not_rst cw (h cw hcw)]
  cases cw.getLsbD 0 <;> decide

/-- Settles O11: the loaded words run as their operations do, whose engine is that of their TICKs alone. -/
theorem everyStrobedEdgeIsOneTick : Obligations.EveryStrobedEdgeIsOneTick := by
  refine ⟨fun s ws hs hws => ?_, fun p => (decodeControl_rst p true).trans (decodeControl_rst p false).symm⟩
  obtain ⟨t, u, hrun, hticks, hengine⟩ :=
    idleEdgesDoNotChangeTheEngine s (ws.map decodeControl) hs (sessionOps_map_decodeControl ws hws)
  rw [tickCount_map_decodeControl ws hws] at hticks
  refine ⟨t.withInputs (ws.getLastD s.pins) [], u, ?_, hticks, hengine⟩
  rw [loadProgram_eq_withInputs]
  exact (core_run_withInputs ws s s.pins).trans (congrArg (nextWithInputs (ws.getLastD s.pins) []) hrun)

end Sys2Proof.Machine
end

section
/-! PROOFS. The encoding vectors (95_test_vectors.md L2): each word by its fields `preset_sel`, `rst` and `tick`. -/

namespace Sys2Proof

/-- The word of three fields decodes by `rst` first, then by `tick` (30_encoding.md R73, R75). -/
theorem decodeWord_controlWord (p : Byte) (rst tick : Bool) :
    decodeWord (controlWord p rst tick).toNat = .ok (if rst then .reset p else if tick then .tick else .idle) := by
  rw [decodeWord_toNat, decodeControl, rstField_controlWord, tickField_controlWord, pselField_controlWord]

/-- Settles O5: the rows of the vector list, each by the fields its word is made of. -/
theorem sampleWordsDecode : Obligations.SampleWordsDecode :=
  ⟨decodeWord_controlWord 0 false false, decodeWord_controlWord 0 false true, decodeWord_controlWord 0 true false,
    decodeWord_controlWord 2 true false, decodeWord_controlWord 3 true true, decodeWord_controlWord 7 true false,
    decodeWord_controlWord 255 false false, decodeWord_controlWord 255 false true,
    decodeWord_controlWord 61 false true, decodeWord_controlWord 255 true true⟩

end Sys2Proof
end
